-- ==== Sys2Proof/Word.lean ====
section
/-! DEFINITION. The words of the Ifrosa C416: bytes, 32-bit and 64-bit quantities (00 Conventions). -/

namespace Sys2Proof

/-- A byte of a record, a snapshot or the status block. -/
abbrev Byte := BitVec 8

/-- A 32-bit quantity that the manual treats as bits: a tag, a cookie, a register value. -/
abbrev W32 := BitVec 32

/-- A 64-bit quantity that the manual treats as bits: a bus address, a register value. -/
abbrev W64 := BitVec 64

end Sys2Proof
end

