-- ==== Sys2Proof/Syntax.lean ====
section
/-! DEFINITION. The commands of the C416: one constructor of `Instr` for each row of spec/opcode_table.json, with the
operands the row's rule needs. -/

namespace Sys2Proof

/-- AX0 to AX3, and with them CL0 to CL3. -/
abbrev AxisId := Fin 4

/-- OUT0 to OUT15. -/
abbrev LineId := Fin 16

/-- CAP0 to CAP7. -/
abbrev ChanId := Fin 8

/-- CIN0 to CIN7. -/
abbrev InputId := Fin 8

/-- M0 to M23. -/
abbrev SlotId := Fin 24

/-- Pair 0 (the admin pair) and the work pairs 1 to 8. -/
abbrev PairId := Fin 9

/-- The 64 bytes of a submission record, lowest address first (R191). -/
abbrev Record := Vector Byte 64

/-- How a bus access covers an 8-byte register place (R142): whole, or one 32-bit half. -/
inductive Access where
  | whole
  | low
  | high
  deriving DecidableEq, Repr

/-- The levels on the input pins whose level the part follows (00 pin summary): true is high. -/
structure Pins where
  holdIn : Bool
  encA : Vector Bool 4
  encB : Vector Bool 4
  cin : Vector Bool 8
  fb : Vector Bool 16
  deriving DecidableEq, Repr

/-- The commands, in the order of spec/opcode_table.json. A record command carries the 64 bytes that the fetch read
returned; the pair is the one that the read engine is reading. -/
inductive Instr where
  /-- TICK (R1). -/
  | tick
  /-- FULL_RESET (R166) with the input levels present at it (R36, R102, R121). -/
  | fullReset (pins : Pins)
  /-- SOFT_RESET (R166): a CONTROL write with SOFT_RESET 1, with the input levels present at it. -/
  | softReset (pins : Pins)
  /-- RESET_DONE (R166). -/
  | resetDone
  /-- ENABLE_WRITE (R143): a CONTROL write with SOFT_RESET 0 and this ENABLE. -/
  | enableWrite (enable : Bool)
  /-- STATUS_BLOCK_BASE_WRITE (R144). -/
  | statusBlockBaseWrite (access : Access) (value : W64)
  /-- ADMIN_SQ_BASE_WRITE (R144). -/
  | adminSqBaseWrite (access : Access) (value : W64)
  /-- ADMIN_CQ_BASE_WRITE (R144). -/
  | adminCqBaseWrite (access : Access) (value : W64)
  /-- ADMIN_SIZES_WRITE (R144). -/
  | adminSizesWrite (value : W32)
  /-- SQ_POST_WRITE (R161). -/
  | sqPostWrite (p : PairId) (value : W32)
  /-- CQ_DONE_WRITE (R162). -/
  | cqDoneWrite (p : PairId) (value : W32)
  /-- NQ_DONE_WRITE (R162). -/
  | nqDoneWrite (value : W32)
  /-- IRQ_MASK_WRITE (R160). -/
  | irqMaskWrite (value : W32)
  /-- REGISTER_WRITE (R142): a 64-bit write by offset; where no register takes a write it is ignored. -/
  | registerWrite (offset : BitVec 12) (value : W64)
  /-- COUNT_EVENT (R19) from a sample of A and B. -/
  | countEvent (a : AxisId) (chA chB : Bool)
  /-- ILLEGAL_TRANSITION (R16) from a sample of A and B. -/
  | illegalTransition (a : AxisId) (chA chB : Bool)
  /-- PRESCALER_EXPIRY (R18). -/
  | prescalerExpiry (a : AxisId)
  /-- INDEX_EDGE (R30): a rising edge on ENCZ of the axis. -/
  | indexEdge (a : AxisId)
  /-- HOLD_IN_ASSERT_AXIS (R27). -/
  | holdInAssertAxis (a : AxisId)
  /-- HOLD_IN_DEASSERT_AXIS (R27). -/
  | holdInDeassertAxis (a : AxisId)
  /-- HOLD_IN_ASSERT_LINE (R116). -/
  | holdInAssertLine (n : LineId)
  /-- HOLD_IN_DEASSERT_LINE (R116). -/
  | holdInDeassertLine (n : LineId)
  /-- HOLD_REQUEST (R26): the axis takes the oldest hold request sent to it. -/
  | holdRequest (a : AxisId)
  /-- LIST_FREEZE (R75). -/
  | listFreeze (a : AxisId)
  /-- LIST_UNFREEZE (R75). -/
  | listUnfreeze (a : AxisId)
  /-- LIST_COUNT_EVENT (R59). -/
  | listCountEvent (a : AxisId)
  /-- LINE_FIRE_ACTION (R108). -/
  | lineFireAction (n : LineId)
  /-- PULSE_END_COUNT (R111): a COMPARE line takes a count event of its axis. -/
  | pulseEndCount (n : LineId)
  /-- PULSE_END_TICK (R112). -/
  | pulseEndTick (n : LineId)
  /-- LINE_AXIS_STOP (R113). -/
  | lineAxisStop (n : LineId)
  /-- LINE_AXIS_HELD (R115). -/
  | lineAxisHeld (n : LineId)
  /-- LINE_AXIS_RESUMED (R115). -/
  | lineAxisResumed (n : LineId)
  /-- LINE_TRIP_NOTICE (R117). -/
  | lineTripNotice (n : LineId)
  /-- LINE_RELEASE_NOTICE (R137). -/
  | lineReleaseNotice (n : LineId)
  /-- LINE_HOST_WRITE (R118): the write that this pair's record processor has delivered. -/
  | lineHostWrite (p : PairId)
  /-- CAPTURE_EDGE (R89): the channel's input goes to this level. -/
  | captureEdge (c : ChanId) (level : Bool)
  /-- LOCKOUT_END (R91): a channel takes a count event of its axis. -/
  | lockoutEnd (c : ChanId)
  /-- CHANNEL_AXIS_CONFIG (R12). -/
  | channelAxisConfig (c : ChanId)
  /-- CHECK_EVENT (R124) with the levels of FB0 to FB15 at it. -/
  | checkEvent (fb : Vector Bool 16)
  /-- ALLOCATION (R41) for the record in progress at this pair. -/
  | allocation (p : PairId)
  /-- INSERTION (R68) of the PENDING entry of this pair's ARM. -/
  | insertion (p : PairId)
  /-- ACTIVATION_INSERTION (R79): the next entry of the `which`-th activation on this list. -/
  | activationInsertion (a : AxisId) (which : Nat)
  /-- APPEND (R95) of the PENDING entry of this pair's ARM_DEFERRED. -/
  | append (p : PairId)
  /-- LIST_CANCEL (R76): the list takes the CANCEL of this pair. -/
  | listCancel (a : AxisId) (p : PairId)
  /-- CHANNEL_CANCEL (R98): the channel takes the CANCEL of this pair. -/
  | channelCancel (c : ChanId) (p : PairId)
  /-- LIST_CANCEL_AXIS (R77). -/
  | listCancelAxis (a : AxisId)
  /-- CHANNEL_CANCEL_AXIS (R99). -/
  | channelCancelAxis (c : ChanId)
  /-- LIST_DISCARD_PAIR (R151). -/
  | listDiscardPair (a : AxisId)
  /-- CHANNEL_DISCARD_PAIR (R99). -/
  | channelDiscardPair (c : ChanId)
  /-- REMOVAL_ANSWER (R177): the record processor of this pair takes one answer. -/
  | removalAnswer (p : PairId)
  /-- FETCH_GRANT (R154). -/
  | fetchGrant
  /-- FETCH_BUS_ERROR (R163). -/
  | fetchBusError
  /-- BAD_KIND (R169). -/
  | badKind (r : Record)
  /-- NOP (R173). -/
  | nop (r : Record)
  /-- ARM (R174). -/
  | arm (r : Record)
  /-- ARM_DEFERRED (R176). -/
  | armDeferred (r : Record)
  /-- CANCEL (R177). -/
  | cancel (r : Record)
  /-- LINE_WRITE (R178). -/
  | lineWrite (r : Record)
  /-- BARRIER (R179). -/
  | barrier (r : Record)
  /-- BARRIER_RELEASE_NOTICE (R180). -/
  | barrierReleaseNotice (p : PairId)
  /-- BARRIER_TIMEOUT (R180). -/
  | barrierTimeout (p : PairId)
  /-- CREATE_PAIR (R149). -/
  | createPair (r : Record)
  /-- DELETE_PAIR (R150). -/
  | deletePair (r : Record)
  /-- DRAIN_END (R151). -/
  | drainEnd
  /-- DISCARD_COMPLETE (R151). -/
  | discardComplete
  /-- SET_NOTICE_RING (R152). -/
  | setNoticeRing (r : Record)
  /-- AXIS_CONFIG (R11). -/
  | axisConfig (r : Record)
  /-- AXIS_START (R23). -/
  | axisStart (r : Record)
  /-- AXIS_STOP (R24). -/
  | axisStop (r : Record)
  /-- AXIS_HALT (R25). -/
  | axisHalt (r : Record)
  /-- AXIS_RESUME (R28). -/
  | axisResume (r : Record)
  /-- AXIS_SET_POSITION (R29). -/
  | axisSetPosition (r : Record)
  /-- AXIS_HOME (R33). -/
  | axisHome (r : Record)
  /-- LINE_CONFIG (R104). -/
  | lineConfig (r : Record)
  /-- CAPTURE_CONFIG (R85). -/
  | captureConfig (r : Record)
  /-- MONITOR_CONFIG (R126). -/
  | monitorConfig (r : Record)
  /-- MONITOR_RELEASE (R136). -/
  | monitorRelease (r : Record)
  /-- MONITOR_GLOBAL (R122). -/
  | monitorGlobal (r : Record)
  /-- QUERY (R184) with the levels of FB0 to FB15 at its snapshot (R120). -/
  | query (r : Record) (fb : Vector Bool 16)
  /-- QUERY_WRITE_DONE (R184): the buffer write is answered with success or with a bus error. -/
  | queryWriteDone (success : Bool)
  /-- CANCEL_AXIS (R185). -/
  | cancelAxis (r : Record)
  /-- POST_COMPLETION (R156): the completion ring of this pair takes the oldest request handed to it. -/
  | postCompletion (p : PairId)
  /-- POST_NOTICE (R157). -/
  | postNotice
  /-- WRITE_ISSUE (R159). -/
  | writeIssue
  /-- RECORD_WRITE_DONE (R159). -/
  | recordWriteDone
  /-- RECORD_WRITE_ERROR (R164). -/
  | recordWriteError
  /-- STATUS_BLOCK_WRITE_DONE (R159). -/
  | statusBlockWriteDone
  /-- STATUS_BLOCK_WRITE_ERROR (R164). -/
  | statusBlockWriteError
  /-- PRESCALER_ADVANCE (R18). -/
  | prescalerAdvance (a : AxisId)
  /-- DECODER_REFERENCE_UPDATE (R13) from a sample of A and B. -/
  | decoderReferenceUpdate (a : AxisId) (chA chB : Bool)
  /-- INPUT_REFERENCE_UPDATE (R88): this capture input goes to this level. -/
  | inputReferenceUpdate (input : InputId) (level : Bool)
  /-- FETCH_READ_DISCARDED (R148). -/
  | fetchReadDiscarded
  deriving DecidableEq, Repr

end Sys2Proof
end

