-- ==== Sys2Proof/Decode.lean ====
section
/-! DEFINITION. Reading a record's bytes (R189, R191), the kind codes (R192), and `decodeTableWord`. -/

namespace Sys2Proof

/-- The kinds of submission record (R192). -/
inductive Kind where
  | nop | arm | armDeferred | cancel | lineWrite | barrier
  | createPair | deletePair | setNoticeRing | axisConfig | axisStart | axisStop | axisHalt | axisResume
  | axisSetPosition | axisHome | lineConfig | captureConfig | monitorConfig | monitorRelease | monitorGlobal
  | query | cancelAxis
  deriving DecidableEq, Repr

/-- The code at byte 0 of a record of this kind (R192). -/
def Kind.code : Kind → Byte
  | .nop => 0x00
  | .arm => 0x01
  | .armDeferred => 0x02
  | .cancel => 0x03
  | .lineWrite => 0x04
  | .barrier => 0x05
  | .createPair => 0x41
  | .deletePair => 0x42
  | .setNoticeRing => 0x43
  | .axisConfig => 0x44
  | .axisStart => 0x45
  | .axisStop => 0x46
  | .axisHalt => 0x47
  | .axisResume => 0x48
  | .axisSetPosition => 0x49
  | .axisHome => 0x4A
  | .lineConfig => 0x4B
  | .captureConfig => 0x4C
  | .monitorConfig => 0x4D
  | .monitorRelease => 0x4E
  | .monitorGlobal => 0x4F
  | .query => 0x50
  | .cancelAxis => 0x51

/-- The kinds of a work ring (R192). -/
def Kind.work : List Kind := [.nop, .arm, .armDeferred, .cancel, .lineWrite, .barrier]

/-- The kinds of the admin ring (R192). -/
def Kind.admin : List Kind :=
  [.nop, .createPair, .deletePair, .setNoticeRing, .axisConfig, .axisStart, .axisStop, .axisHalt, .axisResume,
    .axisSetPosition, .axisHome, .lineConfig, .captureConfig, .monitorConfig, .monitorRelease, .monitorGlobal,
    .query, .cancelAxis]

/-- The kind that a code names on the ring of a pair, or none: a kind of the other ring, or of no ring, is BAD_KIND
there (R169). -/
def Kind.onRing (p : PairId) (code : Byte) : Option Kind :=
  (if p = 0 then Kind.admin else Kind.work).find? fun k => k.code == code

/-- The byte at an offset of a record. -/
def Record.byte (r : Record) (i : Nat) : Byte := r.toList.getD i 0

/-- The unsigned 8-bit field at an offset. -/
def Record.u8 (r : Record) (i : Nat) : Nat := (r.byte i).toNat

/-- The unsigned little-endian 16-bit field at an offset (R189). -/
def Record.u16 (r : Record) (i : Nat) : Nat := r.u8 i + 2 ^ 8 * r.u8 (i + 1)

/-- The unsigned little-endian 32-bit field at an offset (R189). -/
def Record.u32 (r : Record) (i : Nat) : Nat := r.u16 i + 2 ^ 16 * r.u16 (i + 2)

/-- The unsigned little-endian 64-bit field at an offset (R189). -/
def Record.u64 (r : Record) (i : Nat) : Nat := r.u32 i + 2 ^ 32 * r.u32 (i + 4)

/-- The signed two's complement 32-bit field at an offset (10, opening). -/
def Record.s32 (r : Record) (i : Nat) : Int := (BitVec.ofNat 32 (r.u32 i)).toInt

/-- The flag bit at this place of the flags byte (R191). -/
def Record.flag (r : Record) (bit : Nat) : Bool := (r.byte 1).getLsbD bit

/-- The cookie (R191). -/
def Record.cookie (r : Record) : W32 := BitVec.ofNat 32 (r.u32 4)

/-- The kind that a record command of `Instr` stands for, with its record. -/
def Instr.record : Instr → Option (Kind × Record)
  | .nop r => some (.nop, r)
  | .arm r => some (.arm, r)
  | .armDeferred r => some (.armDeferred, r)
  | .cancel r => some (.cancel, r)
  | .lineWrite r => some (.lineWrite, r)
  | .barrier r => some (.barrier, r)
  | .createPair r => some (.createPair, r)
  | .deletePair r => some (.deletePair, r)
  | .setNoticeRing r => some (.setNoticeRing, r)
  | .axisConfig r => some (.axisConfig, r)
  | .axisStart r => some (.axisStart, r)
  | .axisStop r => some (.axisStop, r)
  | .axisHalt r => some (.axisHalt, r)
  | .axisResume r => some (.axisResume, r)
  | .axisSetPosition r => some (.axisSetPosition, r)
  | .axisHome r => some (.axisHome, r)
  | .lineConfig r => some (.lineConfig, r)
  | .captureConfig r => some (.captureConfig, r)
  | .monitorConfig r => some (.monitorConfig, r)
  | .monitorRelease r => some (.monitorRelease, r)
  | .monitorGlobal r => some (.monitorGlobal, r)
  | .query r _ => some (.query, r)
  | .cancelAxis r => some (.cancelAxis, r)
  | _ => none

/-- The command that a word spells by the table's bits: no row of spec/opcode_table.json gives any bits
(98_reader: n_rows_with_fixed 0), so no word spells one. -/
def decodeTableWord (_nbits _w : Nat) : Option Instr := none

end Sys2Proof
end

