-- ==== Sys2Proof/Config.lean ====
section
/-! DEFINITION. What the spec fixes once for the part, and the one value it leaves open. -/

namespace Sys2Proof.Config

/-- The revision byte of IDENT word 0 (R196 names the field and gives it no value). A FREE VALUE: nothing
constrains it (log 20). -/
opaque revision : Byte

/-- The number of entry records in the pool (R40). -/
def poolSize : Nat := 2048

/-- The most armed entries one list holds at one position (R56). -/
def crowdLimit : Nat := 8

/-- The most entries in one batch (R94). -/
def batchLimit : Nat := 64

/-- The most closed batches in one channel's queue (R94). -/
def queueLimit : Nat := 16

/-- The ticks in one unit of the monitor check period (R7). -/
def ticksPerUnit : Nat := 1000

end Sys2Proof.Config
end

