-- ==== Sys2Proof/Machine/State.lean ====
section
/-! DEFINITION. Every piece of state the spec gives the C416, and the machine right after reset. A field marked MODEL is the
model's own: what has been handed from one block to another and not yet taken, or which tick has been offered. -/

namespace Sys2Proof.Machine

/-! ## Names of the device (00 Conventions) -/

/-- The direction of a count event. -/
inductive Dir where
  | fwd
  | rev
  deriving DecidableEq, Repr

/-- The direction qualifier of an entry (R37), and index_direction (R10). -/
inductive Qualifier where
  | fwd
  | rev
  | either
  deriving DecidableEq, Repr

/-- RESET_CAUSE (R143). -/
inductive ResetCause where
  | full
  | soft
  deriving DecidableEq, Repr

/-- The error causes of R143 and R148. STATUS_WRITE is a fault cause only (R193). -/
inductive ErrorCause where
  | postRange
  | doneRange
  | fetchError
  | postError
  | statusWrite
  deriving DecidableEq, Repr

/-- The ack statuses (R193). -/
inductive Status where
  | ok | lateFired | passed | crowded | notFound | poolEmpty | quotaFull | badKind | badField | notConfigured
  | axisState | axisHasEntries | axisTripped | inhibited | indexMode | notPending | lineMode | lineAxis | lineInUse
  | lineTripped | channelOpenElsewhere | channelHasEntries | batchFull | queueFull | monitorTripped | monitorLatched
  | conditionPresent | pairExists | pairAbsent | pairHasEntries | timedOut | aborted | busError
  deriving DecidableEq, Repr

/-! ## Axis Units (02) -/

/-- The decode of a QUAD source (R14, R15). -/
inductive DecodeMode where
  | x1
  | x2
  | x4
  deriving DecidableEq, Repr

/-- The source of an axis, with the fields that apply to it (R10). -/
inductive Source where
  | quad (decode : DecodeMode) (invert : Bool)
  | stepdir (invert : Bool)
  | timebase (prescale : Nat) (dir : Dir)
  deriving DecidableEq, Repr

/-- LINEAR, or ROTARY of a modulus (R10). -/
inductive AxisKind where
  | linear
  | rotary (modulus : Nat)
  deriving DecidableEq, Repr

/-- index_mode (R10). -/
inductive IndexMode where
  | none
  | homeOnce
  | presetEvery
  deriving DecidableEq, Repr

/-- The configuration of an axis (R10). -/
structure AxisConfig where
  source : Source
  kind : AxisKind
  indexMode : IndexMode
  indexDir : Qualifier
  preset : Int
  spacing : Nat
  tolerance : Nat
  lateWindow : Nat
  deriving DecidableEq, Repr

/-- The resume target of a HELD axis (R22). -/
inductive Target where
  | stopped
  | running
  deriving DecidableEq, Repr

/-- The axis states (R22); HELD keeps its resume target. -/
inductive AxisState where
  | unconfigured
  | stopped
  | running
  | held (target : Target)
  deriving DecidableEq, Repr

/-- A hold cause (R22). -/
inductive Cause where
  | host
  | inhibit
  | trip
  | overflow
  deriving DecidableEq, Repr

/-- The hold-cause set (R22): each cause at most once. -/
structure Causes where
  host : Bool
  inhibit : Bool
  trip : Bool
  overflow : Bool
  deriving DecidableEq, Repr

/-- The state of an Axis Unit (02, introduction). -/
structure Axis where
  config : Option AxisConfig
  state : AxisState
  causes : Causes
  position : Int
  lastDir : Option Dir
  serial : Nat
  refA : Bool
  refB : Bool
  prescaler : Nat
  homePending : Bool
  prevIndex : Bool
  net : Int
  spacingError : Bool
  moved : Nat
  illegal : Nat
  holdIn : Bool
  /-- MODEL: a tick has been offered while the axis counts on TIMEBASE and is not yet taken (R7, R18). -/
  tick : Bool
  /-- MODEL: hold requests sent to the unit and not yet taken, oldest first (R26). -/
  holdReqs : List Cause
  deriving DecidableEq, Repr

/-! ## Entries (03) -/

/-- The unit of a pulse duration (R37). -/
inductive PulseUnit where
  | ticks
  | counts
  deriving DecidableEq, Repr

/-- What a fire or a host write asks of a line (R37, R108). -/
inductive Action where
  | set
  | clear
  | toggle
  | pulse (duration : Nat) (unit : PulseUnit)
  deriving DecidableEq, Repr

/-- The late policy of an entry (R37). -/
inductive LatePolicy where
  | wait
  | fire
  | refuse
  deriving DecidableEq, Repr

/-- An entry record (R37), but for its position or offset and its arm order, which stand where the entry is. -/
structure Entry where
  tag : W32
  group : Byte
  owner : PairId
  axis : AxisId
  qual : Qualifier
  action : Action
  line : LineId
  repeatLeft : Nat
  pitch : Option Int
  occurrence : Nat
  report : Bool
  late : LatePolicy
  deriving DecidableEq, Repr

/-- An ARMED entry: its position and arm order are present (R37). -/
structure Armed where
  entry : Entry
  pos : Int
  order : Nat
  deriving DecidableEq, Repr

/-- An entry with an offset in place of a position (R37). -/
structure Waiting where
  entry : Entry
  offset : Int
  deriving DecidableEq, Repr

/-- The Entry Pool (R40, R47). The live entries themselves stand where they are held. -/
structure Pool where
  free : Nat
  quota : Vector Nat 9
  live : Vector Nat 9
  deriving DecidableEq, Repr

/-! ## Compare lists (04) -/

/-- A count event as an Axis Unit hands it on (R19). -/
structure Count where
  dir : Dir
  pos : Int
  serial : Nat
  stamp : Nat
  deriving DecidableEq, Repr

/-- What an Axis Unit hands to its compare list (R57). -/
inductive ListMsg where
  | count (k : Count)
  | freeze
  | unfreeze
  deriving DecidableEq, Repr

/-- A batch activation in progress (R79): the capture position, the stamp of the edge, and the entries it still holds. -/
structure Activation where
  origin : Int
  stamp : Nat
  entries : List Waiting
  deriving DecidableEq, Repr

/-- The state of a compare list (R55). -/
structure CList where
  entries : List Armed
  frozen : Bool
  nextArm : Nat
  discarding : List PairId
  activations : List Activation
  /-- MODEL: what the Axis Unit has handed over and the list has not yet taken, oldest first (R57). -/
  inbox : List ListMsg
  deriving DecidableEq, Repr

/-! ## Capture channels (05) -/

/-- The edge field of a channel (R84). -/
inductive EdgeKind where
  | rising
  | falling
  | both
  deriving DecidableEq, Repr

/-- The configuration of a capture channel (R84); `window` is present when window enable is on. -/
structure ChanConfig where
  input : InputId
  edge : EdgeKind
  axis : AxisId
  window : Option (Int × Int)
  lockout : Nat
  report : Bool
  deriving DecidableEq, Repr

/-- The channel states (05, introduction); LOCKOUT keeps its lockout end. -/
inductive ChanState where
  | off
  | accepting
  | lockout (endSerial : Nat)
  deriving DecidableEq, Repr

/-- The last capture of a channel (R90). -/
structure Capture where
  pos : Int
  serial : Nat
  stamp : Nat
  deriving DecidableEq, Repr

/-- A batch (R94). -/
structure Batch where
  owner : PairId
  entries : List Waiting
  deriving DecidableEq, Repr

/-- What an Axis Unit hands to a channel bound to it (R12, R19). -/
inductive ChanMsg where
  | count (serial : Nat)
  | axisConfig
  deriving DecidableEq, Repr

/-- The state of a capture channel (05, introduction). -/
structure Channel where
  config : Option ChanConfig
  state : ChanState
  ref : Bool
  rejected : Nat
  unclaimed : Nat
  last : Option Capture
  openBatch : Option Batch
  closed : List Batch
  /-- MODEL: what the bound Axis Unit has handed over and the channel has not yet taken, oldest first. -/
  inbox : List ChanMsg
  deriving DecidableEq, Repr

/-! ## Output lines (06) -/

/-- A polarity (R103). -/
inductive Polarity where
  | normal
  | inverted
  deriving DecidableEq, Repr

/-- The retrigger setting (R109). -/
inductive Retrigger where
  | restart
  | extend
  | ignore
  deriving DecidableEq, Repr

/-- The fields of a HOST or COMPARE line (R103); `safe` is true for ACTIVE, `feedback` is present when feedback enable is
on. -/
structure Drive where
  polarity : Polarity
  safe : Bool
  retrigger : Retrigger
  feedback : Option Polarity
  deriving DecidableEq, Repr

/-- The configuration of a line (R103). -/
inductive LineConfig where
  | disabled
  | host (d : Drive)
  | compare (a : AxisId) (d : Drive)
  deriving DecidableEq, Repr

/-- The pulse ends of a PULSING line (R106): an end serial, an end timestamp, or both. -/
structure PulseEnds where
  serial : Option Nat
  tick : Option Nat
  deriving DecidableEq, Repr

/-- The line states (R106); `undriven` is the none of a DISABLED line. -/
inductive LineState where
  | undriven
  | inactive
  | active
  | pulsing (ends : PulseEnds)
  | forced
  deriving DecidableEq, Repr

/-- What an Axis Unit tells a COMPARE line bound to it (R19, R22, R24). -/
inductive LineMsg where
  | count (serial : Nat)
  | stop
  | held
  | resumed
  deriving DecidableEq, Repr

/-- A fire action (R60, step 1): the action with the serial and stamp of its fire. -/
structure FireAction where
  action : Action
  serial : Nat
  stamp : Nat
  deriving DecidableEq, Repr

/-- What the Monitor Table tells a line (R134, R137). -/
inductive TripMsg where
  | trip
  | release
  deriving DecidableEq, Repr

/-- The state of an output line (06, introduction). -/
structure Line where
  config : LineConfig
  state : LineState
  refCount : Nat
  suppressed : Nat
  holdIn : Bool
  axisHeld : Bool
  tripCount : Nat
  /-- MODEL: a tick has been offered since the end timestamp was set (R5, R7). -/
  tick : Bool
  /-- MODEL: handed over by the bound Axis Unit and not yet taken, oldest first. -/
  fromAxis : List LineMsg
  /-- MODEL: fire actions sent by the compare list and not yet taken, oldest first (R107). -/
  fromList : List FireAction
  /-- MODEL: notices sent by the Monitor Table and not yet taken, oldest first (R117). -/
  fromMonitor : List TripMsg
  deriving DecidableEq, Repr

/-! ## Monitor Table (07) -/

/-- The kind of a slot with its subject and, where it applies, its threshold (R125). -/
inductive SlotKind where
  | overspeed (a : AxisId) (threshold : Nat)
  | quadError (a : AxisId) (threshold : Nat)
  | indexSpacing (a : AxisId)
  | lineFeedback (n : LineId)
  deriving DecidableEq, Repr

/-- The severity of a slot; WARN keeps its recover count R (R125). -/
inductive Severity where
  | warn (recover : Nat)
  | hold
  | latch
  deriving DecidableEq, Repr

/-- The configuration of a slot (R125). -/
structure SlotConfig where
  kind : SlotKind
  qualify : Nat
  severity : Severity
  deriving DecidableEq, Repr

/-- The slot states (R130). -/
inductive SlotState where
  | off
  | clear
  | pending
  | tripped
  deriving DecidableEq, Repr

/-- A sample: its verdict and its value (07.3). -/
structure Sample where
  present : Bool
  value : Nat
  deriving DecidableEq, Repr

/-- The state of a slot (07, introduction). -/
structure Slot where
  config : Option SlotConfig
  state : SlotState
  presentRun : Nat
  absentRun : Nat
  last : Option Sample
  opening : Bool
  deriving DecidableEq, Repr

/-- The global setting of the Monitor Table (R122). -/
structure Monitor where
  enable : Bool
  period : Nat
  deadline : Option Nat
  /-- MODEL: a tick at or past the check deadline has been offered since it was set, and the check event has not yet been taken (R5,
  R7). -/
  expired : Bool
  deriving DecidableEq, Repr

/-! ## Records the part writes (R186) -/

/-- An ack (R172). `kind` is the code of the record answered. -/
structure Ack where
  kind : Byte
  cookie : W32
  status : Status
  detail : Nat
  stamp : Nat
  deriving DecidableEq, Repr

/-- A FIRE report (R61). -/
structure FireReport where
  axis : AxisId
  tag : W32
  pos : Int
  occurrence : Nat
  dir : Dir
  final : Bool
  serial : Nat
  stamp : Nat
  deriving DecidableEq, Repr

/-- The reason of a RETIRE report (R67). -/
inductive Reason where
  | endCrowded
  | endRange
  | actRange
  | actPassed
  | actCrowded
  deriving DecidableEq, Repr

/-- A RETIRE report (R67). -/
structure RetireReport where
  axis : AxisId
  tag : W32
  pos : Int
  occurrence : Nat
  reason : Reason
  serial : Nat
  stamp : Nat
  deriving DecidableEq, Repr

/-- A posting request for a completion ring (R156). -/
inductive CqRequest where
  | ack (k : Ack)
  | fire (f : FireReport)
  | retire (r : RetireReport)
  deriving DecidableEq, Repr

/-- A notice (R93, R138, R139, R187). -/
inductive Notice where
  | capture (c : ChanId) (pos : Int) (activated : Nat) (held unclaimed : Bool) (serial stamp : Nat)
  | homeDone (a : AxisId) (before after : Int) (serial stamp : Nat)
  | indexCorrected (a : AxisId) (before after : Int) (serial stamp : Nat)
  | axisHeld (a : AxisId) (pos : Int) (cause : Cause) (set : Causes) (target : Target) (stamp : Nat)
  | monitorTripped (m : SlotId) (cfg : SlotConfig) (value run stamp : Nat)
  | monitorRecovered (m : SlotId) (cfg : SlotConfig) (value run stamp : Nat)
  deriving DecidableEq, Repr

/-! ## Rings (08) -/

/-- The pair states (08.3). -/
inductive PairState where
  | absent
  | active
  | draining
  | error
  deriving DecidableEq, Repr

/-- A pair: its ring descriptors, indices, reservation and lost counts (R145 to R149). Pair 0's descriptors are ADMIN_SQ_BASE,
ADMIN_CQ_BASE and ADMIN_SIZES; its state follows FAULT (R148), so its `state` stays `active` and its `cause` none. -/
structure Pair where
  state : PairState
  cause : Option ErrorCause
  sqBase : W64
  cqBase : W64
  sqSize : Nat
  cqSize : Nat
  sqHead : Nat
  sqPost : Nat
  cqWrite : Nat
  cqPub : Nat
  cqDone : Nat
  reserved : Bool
  pendLost : Nat
  totLost : Nat
  deriving DecidableEq, Repr

/-- The states of the notice ring (R152). -/
inductive NqState where
  | unset
  | active
  | error
  deriving DecidableEq, Repr

/-- The notice ring (R152). -/
structure NoticeRing where
  state : NqState
  base : W64
  size : Nat
  write : Nat
  pub : Nat
  done : Nat
  pendLost : Nat
  totLost : Nat
  deriving DecidableEq, Repr

/-- The rings the part writes. -/
inductive RingId where
  | cq (p : PairId)
  | nq
  deriving DecidableEq, Repr

/-- A write that the posting unit has accepted (R159): a record with its slot and the index after it, a status block write of
an SQ head or of a tail, or a QUERY snapshot. A tail write `publishes` when it follows a record's write (R159); one of an index
set to 0 does not. -/
inductive QueuedWrite where
  | record (ring : RingId) (slot next : Nat) (data : List Byte)
  | head (p : PairId) (value : Nat)
  | tail (ring : RingId) (value : Nat) (publishes : Bool)
  | snapshot (addr : W64) (data : List Byte)
  deriving DecidableEq, Repr

/-- The write on the bus, at its address. `stale` says that its ring is gone: it completes, and its answer moves no index
(R144, R151). -/
structure BusWrite where
  write : QueuedWrite
  addr : W64
  stale : Bool
  deriving DecidableEq, Repr

/-- The read outstanding at the read engine (R154). -/
structure FetchRead where
  pair : PairId
  addr : W64
  deriving DecidableEq, Repr

/-! ## Record processors (09) -/

/-- The scope of a CANCEL (R51). -/
inductive CancelScope where
  | tag (t : W32)
  | group (g : Byte)
  | all
  deriving DecidableEq, Repr

/-- The scope of a BARRIER (R179). -/
inductive BarrierScope where
  | group (g : Byte)
  | all
  deriving DecidableEq, Repr

/-- A block that takes removal requests (R177). -/
inductive Block where
  | list (a : AxisId)
  | channel (c : ChanId)
  deriving DecidableEq, Repr

/-- A removal request's progress (R168): the blocks that have not yet taken it, the answers the processor has not yet taken
(count and stamp of the removal event), the running sum, and the stamp of the last removal event among the answers taken. -/
structure Removing where
  todo : List Block
  answers : List (Nat × Nat)
  sum : Nat
  stamp : Nat
  deriving DecidableEq, Repr

/-- A BARRIER in progress (R179): its scope, remaining count and deadline, and the release notices sent to the processor and
not yet taken (group and stamp, R45). -/
structure BarrierWait where
  scope : BarrierScope
  remaining : Nat
  deadline : Option Nat
  /-- MODEL: a tick at or past the deadline has been offered since it was set, and the processor has not yet taken the expiry (R5,
  R7). -/
  expired : Bool
  /-- MODEL: release notices not yet taken, oldest first. -/
  notices : List (Byte × Nat)
  deriving DecidableEq, Repr

/-- Where a record in progress stands (R168). -/
inductive Phase where
  /-- An ARM that has passed steps 1 to 5 and asks for its entry (R174). -/
  | allocateArm (e : Entry) (pos : Int)
  /-- An ARM_DEFERRED that has passed steps 1 to 5 and asks for its entry (R176). -/
  | allocateDeferred (w : Waiting) (c : ChanId) (close : Bool)
  /-- An ARM whose PENDING entry is offered to its list (R175). -/
  | inserting (e : Entry) (pos : Int)
  /-- An ARM_DEFERRED whose PENDING entry is offered to its channel (R176). -/
  | appending (w : Waiting) (c : ChanId) (close : Bool)
  /-- A LINE_WRITE delivered to its line (R178). -/
  | writing (n : LineId) (action : Action)
  /-- A CANCEL (R177). -/
  | cancelling (scope : CancelScope) (restrict : Option AxisId) (r : Removing)
  /-- A CANCEL_AXIS (R185). -/
  | cancellingAxis (a : AxisId) (r : Removing)
  /-- A BARRIER that waits (R179). -/
  | waiting (b : BarrierWait)
  /-- A QUERY whose buffer write is queued or on the bus, with the stamp of its snapshot (R184). -/
  | querying (stamp : Nat)
  /-- A DELETE_PAIR whose pair drains (R150). -/
  | draining (p : PairId) (discard : Bool)
  /-- A DELETE_PAIR that discards (R151). `emptied` is the stamp of the pool event at which the pair's live count reached 0. -/
  | discarding (p : PairId) (r : Removing) (emptied : Option Nat)
  /-- The ack is handed to the posting unit and not yet taken there (R168). -/
  | acked
  deriving DecidableEq, Repr

/-- A record processor (R168): idle, or one record in progress with its kind code and cookie. -/
inductive Proc where
  | idle
  | busy (kind : Byte) (cookie : W32) (phase : Phase)
  deriving DecidableEq, Repr

/-! ## The machine -/

/-- The state of the C416. -/
structure State where
  /-- The timestamp (R1). -/
  ts : Nat
  /-- The reset in progress, if any: READY is 0 from its start to its end (R143). -/
  resetting : Option ResetCause
  /-- RESET_CAUSE (R143). -/
  resetCause : ResetCause
  /-- MODEL: a tick event has been taken since the last reset started (R2, log 35). -/
  resetTick : Bool
  /-- CONTROL.ENABLE (R143). -/
  enable : Bool
  /-- STATUS.FAULT, with its cause (R143). -/
  fault : Option ErrorCause
  /-- STATUS_BLOCK_BASE (R144). -/
  sbBase : W64
  /-- IRQ_MASK (R160, R196). -/
  irqMask : BitVec 11
  /-- The level each input pin last presented. -/
  pins : Pins
  axes : Vector Axis 4
  lists : Vector CList 4
  pool : Pool
  channels : Vector Channel 8
  lines : Vector Line 16
  monitor : Monitor
  slots : Vector Slot 24
  pairs : Vector Pair 9
  procs : Vector Proc 9
  nq : NoticeRing
  /-- The read engine: the read outstanding, or free (R154). -/
  engine : Option FetchRead
  /-- The last work pair served (R154). -/
  lastServed : PairId
  /-- The posting requests handed for each completion ring and not yet taken there, oldest first (R156). -/
  cqReq : Vector (List CqRequest) 9
  /-- The notices handed to the posting unit and not yet taken at the notice ring, oldest first (R157). -/
  nqReq : List Notice
  /-- The writes accepted and not yet issued, oldest first (R159). -/
  writeQ : List QueuedWrite
  /-- The write on the bus (R159). -/
  onBus : Option BusWrite
  /-- MODEL: the commands that are waiting, first in, first out. -/
  pending : List Instr
  deriving DecidableEq, Repr

/-- Faults: none. The spec gives the block no event that stops it (INVENTORY, Faults), so no meaning raises one. -/
inductive Fault where
  deriving DecidableEq, Repr

/-- Refusals. -/
inductive Refusal where
  /-- Raised by `exec` for a row that has no meaning yet; no row is left so. Safe: the model stops. -/
  | notModelled (mnemonic : String)
  deriving DecidableEq, Repr

/-! ## Reset values -/

/-- An Axis Unit after a reset (R36), with the HOLD_IN and encoder levels present at it. -/
def blankAxis (holdIn chA chB : Bool) : Axis where
  config := none
  state := .unconfigured
  causes := ⟨false, false, false, false⟩
  position := 0
  lastDir := none
  serial := 0
  refA := chA
  refB := chB
  prescaler := 0
  homePending := false
  prevIndex := false
  net := 0
  spacingError := false
  moved := 0
  illegal := 0
  holdIn := holdIn
  tick := false
  holdReqs := []

/-- A compare list after a reset (R82). -/
def blankList : CList := ⟨[], false, 0, [], [], []⟩

/-- The Entry Pool after a reset (R54). -/
def blankPool : Pool := ⟨Config.poolSize, Vector.replicate 9 0, Vector.replicate 9 0⟩

/-- A capture channel after a reset (R102), with the level of its input (log 18). -/
def blankChannel (level : Bool) : Channel := ⟨none, .off, level, 0, 0, none, none, [], []⟩

/-- An output line after a reset (R121), with the HOLD_IN level present at it. -/
def blankLine (holdIn : Bool) : Line := ⟨.disabled, .undriven, 0, 0, holdIn, false, 0, false, [], [], []⟩

/-- A slot after a reset, or when OFF (R126, R141). -/
def blankSlot : Slot := ⟨none, .off, 0, 0, none, false⟩

/-- The global setting after a reset: off, period 10 (R141). -/
def blankMonitor : Monitor := ⟨false, 10, none, false⟩

/-- An ABSENT pair after a reset: no descriptors, all indices and counts 0 (R151, R166). The error cause none is DEDUCED from R148
(log 34). -/
def absentPair : Pair := ⟨.absent, none, 0, 0, 0, 0, 0, 0, 0, 0, 0, false, 0, 0⟩

/-- Pair 0 after a reset: bases 0, sizes 16 and 16, all indices and counts 0 (R166). -/
def blankAdmin : Pair := ⟨.active, none, 0, 0, 16, 16, 0, 0, 0, 0, 0, false, 0, 0⟩

/-- The notice ring after a reset: UNSET, all indices and counts 0 (R166). The base and size 0 of the UNSET ring are a DESIGN CHOICE
(log 34). -/
def blankRing : NoticeRing := ⟨.unset, 0, 0, 0, 0, 0, 0, 0⟩

/-- All input pins low: the levels of `State.reset` (DESIGN CHOICE, log 6). -/
def lowPins : Pins where
  holdIn := false
  encA := Vector.replicate 4 false
  encB := Vector.replicate 4 false
  cin := Vector.replicate 8 false
  fb := Vector.replicate 16 false

/-- Every block at its reset values (R36, R54, R82, R102, R121, R141, R166, R168), with the timestamp, the reset in
progress, RESET_CAUSE, the pin levels and the waiting commands given. -/
def State.cleared (ts : Nat) (resetting : Option ResetCause) (cause : ResetCause) (pins : Pins) (pending : List Instr) :
    State where
  ts := ts
  resetting := resetting
  resetCause := cause
  resetTick := false
  enable := false
  fault := none
  sbBase := 0
  irqMask := 0
  pins := pins
  axes := Vector.ofFn fun a => blankAxis pins.holdIn pins.encA[a] pins.encB[a]
  lists := Vector.replicate 4 blankList
  pool := blankPool
  channels := Vector.ofFn fun c => blankChannel pins.cin[c]
  lines := Vector.replicate 16 (blankLine pins.holdIn)
  monitor := blankMonitor
  slots := Vector.replicate 24 blankSlot
  pairs := Vector.ofFn fun p => if p = 0 then blankAdmin else absentPair
  procs := Vector.replicate 9 .idle
  nq := blankRing
  engine := none
  lastServed := 8
  cqReq := Vector.replicate 9 []
  nqReq := []
  writeQ := []
  onBus := none
  pending := pending

/-- The machine right after a full reset has ended: timestamp 0 (R2), READY 1 and RESET_CAUSE FULL (R166), every block at
its reset values, every input pin low (DESIGN CHOICE, log 6), and no command waiting. -/
def State.reset : State := State.cleared 0 none .full lowPins []

end Sys2Proof.Machine
end

