-- ==== Sys2Proof/Machine/Operands.lean ====
section
/-! DEFINITION. The fields of a submission record: the codes of R193, the layouts and field indices of R190 and R191, the checks
of steps 2 and 3 (R170, R171), and the values the fields give. -/

namespace Sys2Proof.Machine

/-! ## Codes (R193) -/

/-- The code of a direction. -/
def Dir.code : Dir → Nat
  | .fwd => 1
  | .rev => 2

/-- The direction of a code that step 3 has let through. -/
def dirOf (n : Nat) : Dir := if n = 2 then .rev else .fwd

/-- The code of a direction qualifier. -/
def Qualifier.code : Qualifier → Nat
  | .fwd => 1
  | .rev => 2
  | .either => 3

/-- The qualifier of a code that step 3 has let through. -/
def qualOf (n : Nat) : Qualifier := if n = 1 then .fwd else if n = 2 then .rev else .either

/-- The decode of a code that step 3 has let through. -/
def decodeOf (n : Nat) : DecodeMode := if n = 0 then .x1 else if n = 1 then .x2 else .x4

/-- The code of a decode. -/
def DecodeMode.code : DecodeMode → Nat
  | .x1 => 0
  | .x2 => 1
  | .x4 => 2

/-- The index mode of a code that step 3 has let through. -/
def indexModeOf (n : Nat) : IndexMode := if n = 0 then .none else if n = 1 then .homeOnce else .presetEvery

/-- The code of an index mode. -/
def IndexMode.code : IndexMode → Nat
  | .none => 0
  | .homeOnce => 1
  | .presetEvery => 2

/-- The polarity of a code that step 3 has let through. -/
def polarityOf (n : Nat) : Polarity := if n = 0 then .normal else .inverted

/-- The code of a polarity. -/
def Polarity.code : Polarity → Nat
  | .normal => 0
  | .inverted => 1

/-- The retrigger setting of a code that step 3 has let through. -/
def retriggerOf (n : Nat) : Retrigger := if n = 0 then .restart else if n = 1 then .extend else .ignore

/-- The code of a retrigger setting. -/
def Retrigger.code : Retrigger → Nat
  | .restart => 0
  | .extend => 1
  | .ignore => 2

/-- The edge field of a code that step 3 has let through. -/
def edgeOf (n : Nat) : EdgeKind := if n = 0 then .rising else if n = 1 then .falling else .both

/-- The code of an edge field. -/
def EdgeKind.code : EdgeKind → Nat
  | .rising => 0
  | .falling => 1
  | .both => 2

/-- The late policy of a code that step 3 has let through. -/
def lateOf (n : Nat) : LatePolicy := if n = 0 then .wait else if n = 1 then .fire else .refuse

/-- The code of a hold cause (one cause, or one bit of a set). -/
def Cause.code : Cause → Nat
  | .host => 0x01
  | .inhibit => 0x02
  | .trip => 0x04
  | .overflow => 0x08

/-- The bits of a hold-cause set. -/
def Causes.code (c : Causes) : Nat :=
  (if c.host then Cause.host.code else 0) + (if c.inhibit then Cause.inhibit.code else 0) +
    (if c.trip then Cause.trip.code else 0) + (if c.overflow then Cause.overflow.code else 0)

/-- The code of a resume target; 0 is none. -/
def Target.code : Target → Nat
  | .stopped => 1
  | .running => 2

/-- The code of an axis state. -/
def AxisState.code : AxisState → Nat
  | .unconfigured => 0
  | .stopped => 1
  | .running => 2
  | .held _ => 3

/-- The code of a line state. -/
def LineState.code : LineState → Nat
  | .undriven => 0
  | .inactive => 1
  | .active => 2
  | .pulsing _ => 3
  | .forced => 4

/-- The code of a channel state. -/
def ChanState.code : ChanState → Nat
  | .off => 0
  | .accepting => 1
  | .lockout _ => 2

/-- The code of a slot state. -/
def SlotState.code : SlotState → Nat
  | .off => 0
  | .clear => 1
  | .pending => 2
  | .tripped => 3

/-- The code of a monitor kind. -/
def SlotKind.code : SlotKind → Nat
  | .overspeed _ _ => 0
  | .quadError _ _ => 1
  | .indexSpacing _ => 2
  | .lineFeedback _ => 3

/-- The code of a severity. -/
def Severity.code : Severity → Nat
  | .warn _ => 0
  | .hold => 1
  | .latch => 2

/-- The code of a pair state. -/
def PairState.code : PairState → Nat
  | .absent => 0
  | .active => 1
  | .draining => 2
  | .error => 3

/-- The code of a notice ring state. -/
def NqState.code : NqState → Nat
  | .unset => 0
  | .active => 1
  | .error => 3

/-- The code of an error cause or fault cause; 0 is none. -/
def ErrorCause.code : ErrorCause → Nat
  | .postRange => 1
  | .doneRange => 2
  | .fetchError => 3
  | .postError => 4
  | .statusWrite => 5

/-- The code of a RETIRE reason. -/
def Reason.code : Reason → Nat
  | .endCrowded => 1
  | .endRange => 2
  | .actRange => 3
  | .actPassed => 4
  | .actCrowded => 5

/-- The code of an ack status. -/
def Status.code : Status → Nat
  | .ok => 0x00
  | .lateFired => 0x01
  | .passed => 0x02
  | .crowded => 0x03
  | .notFound => 0x04
  | .poolEmpty => 0x05
  | .quotaFull => 0x06
  | .badKind => 0x07
  | .badField => 0x08
  | .notConfigured => 0x09
  | .axisState => 0x0A
  | .axisHasEntries => 0x0B
  | .axisTripped => 0x0C
  | .inhibited => 0x0D
  | .indexMode => 0x0E
  | .notPending => 0x0F
  | .lineMode => 0x10
  | .lineAxis => 0x11
  | .lineInUse => 0x12
  | .lineTripped => 0x13
  | .channelOpenElsewhere => 0x14
  | .channelHasEntries => 0x15
  | .batchFull => 0x16
  | .queueFull => 0x17
  | .monitorTripped => 0x18
  | .monitorLatched => 0x19
  | .conditionPresent => 0x1A
  | .pairExists => 0x1B
  | .pairAbsent => 0x1C
  | .pairHasEntries => 0x1D
  | .timedOut => 0x1E
  | .aborted => 0x1F
  | .busError => 0x20

/-! ## Step 2: reserved fields and reserved flag bits (R170, R171, R189, R190, R191) -/

/-- The number of flag bits that a kind defines, from bit 0 up (R191). -/
def flagBits : Kind → Nat
  | .arm => 1
  | .armDeferred => 2
  | .cancel => 1
  | .deletePair => 1
  | .axisConfig => 1
  | .axisHome => 1
  | .lineConfig => 1
  | .captureConfig => 4
  | .monitorConfig => 1
  | .monitorGlobal => 1
  | _ => 0

/-- The reserved runs of a kind's body, each with its field index, its first byte and the byte after its last (R190, R191). -/
def reservedRuns : Kind → List (Nat × Nat × Nat)
  | .nop => [(4, 8, 64)]
  | .arm => [(16, 33, 34), (17, 44, 64)]
  | .armDeferred => [(16, 33, 34), (17, 44, 64)]
  | .cancel => [(8, 15, 64)]
  | .lineWrite => [(7, 11, 12), (9, 16, 64)]
  | .barrier => [(7, 14, 64)]
  | .createPair => [(5, 9, 16), (11, 38, 64)]
  | .deletePair => [(5, 9, 64)]
  | .setNoticeRing => [(6, 18, 64)]
  | .axisConfig => [(11, 15, 16), (18, 36, 64)]
  | .axisStart => [(5, 9, 64)]
  | .axisStop => [(5, 9, 64)]
  | .axisHalt => [(5, 9, 64)]
  | .axisResume => [(5, 9, 64)]
  | .axisSetPosition => [(5, 9, 12), (7, 16, 64)]
  | .axisHome => [(5, 9, 64)]
  | .lineConfig => [(11, 15, 64)]
  | .captureConfig => [(11, 24, 64)]
  | .monitorConfig => [(10, 14, 16), (12, 20, 64)]
  | .monitorRelease => [(5, 9, 64)]
  | .monitorGlobal => [(5, 10, 64)]
  | .query => [(6, 10, 16), (8, 24, 64)]
  | .cancelAxis => [(5, 9, 64)]

/-- Whether the bytes of a record from `lo` up to and without `hi` are all 0. -/
def zeroBytes (r : Record) (lo hi : Nat) : Bool := ((r.toList.drop lo).take (hi - lo)).all fun b => b == 0

/-- The step 2 checks in field index order: the flags byte at index 1, the reserved bytes 2 and 3 at index 2, and the body's
reserved runs (R171, R190). -/
def reservedChecks (k : Kind) (r : Record) : List (Nat × Bool) :=
  (1, decide (r.u8 1 < 2 ^ flagBits k)) :: (2, zeroBytes r 2 4) ::
    (reservedRuns k).map fun (ix, lo, hi) => (ix, zeroBytes r lo hi)

/-! ## Step 3: ranges of the applicable fields (R170, R171) -/

/-- A ring size: a power of two in 16..4096 (R145). -/
def ringSize (n : Nat) : Bool := [16, 32, 64, 128, 256, 512, 1024, 2048, 4096].contains n

/-- A pulse duration: 1..16,777,215 (R37). -/
def pulseDuration (n : Nat) : Bool := decide (1 ≤ n ∧ n ≤ 16777215)

/-- A pitch: nonzero with magnitude below 2^30 (R37). -/
def pitchInRange (n : Int) : Bool := decide (n ≠ 0 ∧ n.natAbs < 2 ^ 30)

/-- The checks of the entry fields of ARM and ARM_DEFERRED, whose axis or channel lies below `places` (R38, R174, R176). -/
def entryChecks (r : Record) (places : Nat) : List (Nat × Bool) :=
  [(6, decide (r.u16 24 = 0) || pitchInRange (r.s32 16)),
    (7, decide (r.u8 30 ≠ 3) || pulseDuration (r.u32 20)),
    (10, decide (r.u8 27 < places)),
    (11, decide (r.u8 28 < 16)),
    (12, decide (1 ≤ r.u8 29 ∧ r.u8 29 ≤ 3)),
    (13, decide (r.u8 30 ≤ 3)),
    (14, decide (r.u8 30 ≠ 3 ∨ r.u8 31 ≤ 1)),
    (15, decide (r.u8 32 ≤ 2))]

/-- The step 3 checks of a kind's applicable fields, in field index order, each with its field index. A field that is not
applicable under the other fields passes (R171); a check that needs an earlier field's value comes after that field's own. -/
def fieldChecks (k : Kind) (r : Record) : List (Nat × Bool) :=
  match k with
  | .nop => []
  | .arm => entryChecks r 4
  | .armDeferred => entryChecks r 8
  | .cancel => [(5, decide (r.u8 12 ≤ 2)), (7, !r.flag 0 || decide (r.u8 14 < 4))]
  | .lineWrite =>
    [(4, decide (r.u8 8 < 16)), (5, decide (r.u8 9 = 0 ∨ r.u8 9 = 1 ∨ r.u8 9 = 3)),
      (6, decide (r.u8 9 ≠ 3 ∨ r.u8 10 = 0)), (8, decide (r.u8 9 ≠ 3) || pulseDuration (r.u32 12))]
  | .barrier => [(5, decide (1 ≤ r.u8 12 ∧ r.u8 12 ≤ 2))]
  | .createPair =>
    [(4, decide (1 ≤ r.u8 8 ∧ r.u8 8 ≤ 8)), (6, decide (r.u64 16 % 1024 = 0)), (7, decide (r.u64 24 % 512 = 0)),
      (8, ringSize (r.u16 32)), (9, ringSize (r.u16 34)), (10, decide (1 ≤ r.u16 36 ∧ r.u16 36 ≤ 2048))]
  | .deletePair => [(4, decide (1 ≤ r.u8 8 ∧ r.u8 8 ≤ 8))]
  | .setNoticeRing => [(4, decide (r.u64 8 % 512 = 0)), (5, ringSize (r.u16 16))]
  | .axisConfig =>
    [(4, decide (r.u8 8 < 4)), (5, decide (r.u8 9 ≤ 2)), (6, decide (r.u8 9 ≠ 0 ∨ r.u8 10 ≤ 2)), (7, decide (r.u8 11 ≤ 1)),
      (8, decide (r.u8 12 ≤ 2)), (9, decide (1 ≤ r.u8 13 ∧ r.u8 13 ≤ 3)),
      (10, decide (r.u8 9 ≠ 2 ∨ (1 ≤ r.u8 14 ∧ r.u8 14 ≤ 2))),
      (12, decide (r.u8 11 ≠ 1 ∨ (2 ≤ r.u32 16 ∧ r.u32 16 ≤ 2 ^ 31))),
      (13, decide (r.u8 9 ≠ 2 ∨ (1 ≤ r.u32 20 ∧ r.u32 20 ≤ 65536))),
      (14, decide (r.u8 11 ≠ 1 ∨ (0 ≤ r.s32 24 ∧ r.s32 24 < r.u32 16))), (15, decide (r.u32 28 ≤ 2 ^ 31))]
  | .axisStart => [(4, decide (r.u8 8 < 4))]
  | .axisStop => [(4, decide (r.u8 8 < 4))]
  | .axisHalt => [(4, decide (r.u8 8 < 4))]
  | .axisResume => [(4, decide (r.u8 8 < 4))]
  | .axisSetPosition => [(4, decide (r.u8 8 < 4))]
  | .axisHome => [(4, decide (r.u8 8 < 4))]
  | .lineConfig =>
    [(4, decide (r.u8 8 < 16)), (5, decide (r.u8 9 ≤ 2)), (6, decide (r.u8 9 ≠ 2 ∨ r.u8 10 < 4)),
      (7, decide (r.u8 9 = 0 ∨ r.u8 11 ≤ 1)), (8, decide (r.u8 9 = 0 ∨ r.u8 12 ≤ 1)),
      (9, decide (r.u8 9 = 0 ∨ r.u8 13 ≤ 2)), (10, decide (r.u8 9 = 0) || !r.flag 0 || decide (r.u8 14 ≤ 1))]
  | .captureConfig =>
    (4, decide (r.u8 8 < 8)) ::
      (if r.flag 0 then
        [(5, decide (r.u8 9 < 8)), (6, decide (r.u8 10 ≤ 2)), (7, decide (r.u8 11 < 4)), (10, decide (r.u32 20 < 2 ^ 24))]
      else [])
  | .monitorConfig =>
    (4, decide (r.u8 8 < 24)) ::
      (if r.flag 0 then
        [(5, decide (r.u8 9 ≤ 3)), (6, decide (r.u8 10 < if r.u8 9 = 3 then 16 else 4)), (7, decide (1 ≤ r.u8 11)),
          (8, decide (r.u8 13 ≠ 0 ∨ 1 ≤ r.u8 12)), (9, decide (r.u8 13 ≤ 2))]
      else [])
  | .monitorRelease => [(4, decide (r.u8 8 < 24))]
  | .monitorGlobal => [(4, decide (1 ≤ r.u16 8 ∧ r.u16 8 ≤ 10000))]
  | .query =>
    [(4, decide (r.u8 8 ≤ 5)),
      (5, decide (r.u8 9 < match r.u8 8 with
        | 0 => 4
        | 1 => 16
        | 2 => 8
        | 3 => 24
        | 4 => 10
        | _ => 1)),
      (7, decide (r.u64 16 % 64 = 0))]
  | .cancelAxis => [(4, decide (r.u8 8 < 4))]

/-- The field index of the first check that fails. -/
def firstBad (checks : List (Nat × Bool)) : Option Nat := (checks.find? fun x => !x.2).map fun x => x.1

/-- Steps 2 and 3 of the validation order: none, or the index that BAD_FIELD names. Every reserved field is looked at before any
range (R171). -/
def badField (k : Kind) (r : Record) : Option Nat :=
  match firstBad (reservedChecks k r) with
  | some ix => some ix
  | none => firstBad (fieldChecks k r)

/-- The action of a code with its pulse fields, which are stored when it is PULSE (R38). -/
def actionOf (code duration unit : Nat) : Action :=
  if code = 0 then .set
  else if code = 1 then .clear
  else if code = 2 then .toggle
  else .pulse duration (if unit = 0 then .ticks else .counts)

end Sys2Proof.Machine

namespace Sys2Proof

open Machine

/-! ## The values of the fields -/

/-- The axis that a field names. -/
def Record.axisAt (r : Record) (i : Nat) : AxisId := Fin.ofNat 4 (r.u8 i)

/-- The line that a field names. -/
def Record.lineAt (r : Record) (i : Nat) : LineId := Fin.ofNat 16 (r.u8 i)

/-- The channel that a field names. -/
def Record.chanAt (r : Record) (i : Nat) : ChanId := Fin.ofNat 8 (r.u8 i)

/-- The slot that a field names. -/
def Record.slotAt (r : Record) (i : Nat) : SlotId := Fin.ofNat 24 (r.u8 i)

/-- The pair that a field names. -/
def Record.pairAt (r : Record) (i : Nat) : PairId := Fin.ofNat 9 (r.u8 i)

/-- The entry that an ARM or ARM_DEFERRED of a pair allocates, on an axis (R37): occurrence 0, and a pitch when repeat
remaining is above 0. -/
def Record.entry (r : Record) (p : PairId) (a : AxisId) : Entry where
  tag := BitVec.ofNat 32 (r.u32 8)
  group := r.byte 26
  owner := p
  axis := a
  qual := qualOf (r.u8 29)
  action := actionOf (r.u8 30) (r.u32 20) (r.u8 31)
  line := r.lineAt 28
  repeatLeft := r.u16 24
  pitch := if r.u16 24 = 0 then none else some (r.s32 16)
  occurrence := 0
  report := r.flag 0
  late := lateOf (r.u8 32)

/-- The configuration that an AXIS_CONFIG carries (R10): a field that does not apply is not stored. -/
def Record.axisConfig (r : Record) : AxisConfig where
  source :=
    if r.u8 9 = 0 then .quad (decodeOf (r.u8 10)) (r.flag 0)
    else if r.u8 9 = 1 then .stepdir (r.flag 0)
    else .timebase (r.u32 20) (dirOf (r.u8 14))
  kind := if r.u8 11 = 0 then .linear else .rotary (r.u32 16)
  indexMode := indexModeOf (r.u8 12)
  indexDir := qualOf (r.u8 13)
  preset := r.s32 24
  spacing := r.u32 28
  tolerance := r.u16 32
  lateWindow := r.u16 34

/-- The HOST or COMPARE fields that a LINE_CONFIG carries (R103). -/
def Record.drive (r : Record) : Drive where
  polarity := polarityOf (r.u8 11)
  safe := decide (r.u8 12 = 1)
  retrigger := retriggerOf (r.u8 13)
  feedback := if r.flag 0 then some (polarityOf (r.u8 14)) else none

/-- The configuration that a LINE_CONFIG carries (R103). -/
def Record.lineConfig (r : Record) : LineConfig :=
  if r.u8 9 = 0 then .disabled
  else if r.u8 9 = 1 then .host r.drive
  else .compare (r.axisAt 10) r.drive

/-- The configuration that a CAPTURE_CONFIG with its enable flag on carries (R84). -/
def Record.chanConfig (r : Record) : ChanConfig where
  input := Fin.ofNat 8 (r.u8 9)
  edge := edgeOf (r.u8 10)
  axis := r.axisAt 11
  window := if r.flag 2 then some (r.s32 12, r.s32 16) else none
  lockout := r.u32 20
  report := r.flag 3

/-- The configuration that a MONITOR_CONFIG with its enable flag on carries (R125). -/
def Record.slotConfig (r : Record) : SlotConfig where
  kind :=
    if r.u8 9 = 0 then .overspeed (r.axisAt 10) (r.u32 16)
    else if r.u8 9 = 1 then .quadError (r.axisAt 10) (r.u32 16)
    else if r.u8 9 = 2 then .indexSpacing (r.axisAt 10)
    else .lineFeedback (r.lineAt 10)
  qualify := r.u8 11
  severity := if r.u8 13 = 0 then .warn (r.u8 12) else if r.u8 13 = 1 then .hold else .latch

/-- The scope that a CANCEL carries (R177). -/
def Record.cancelScope (r : Record) : CancelScope :=
  if r.u8 12 = 0 then .tag (BitVec.ofNat 32 (r.u32 8)) else if r.u8 12 = 1 then .group (r.byte 13) else .all

/-- The axis restriction that a CANCEL carries (R177). -/
def Record.restriction (r : Record) : Option AxisId := if r.flag 0 then some (r.axisAt 14) else none

/-- The scope that a BARRIER carries (R179). -/
def Record.barrierScope (r : Record) : BarrierScope := if r.u8 12 = 1 then .group (r.byte 13) else .all

end Sys2Proof
end

