-- ==== Sys2Proof/Machine/Ops.lean ====
section
/-! DEFINITION. The named operations over the state: access to each block, what one block hands to another, the release of an
entry, the hold of an axis, the start and the end of a record, and the errors of the Ring Engine. -/

namespace Sys2Proof.Machine

/-! ## Counts that saturate -/

/-- The largest unsigned 32-bit value. -/
def max32 : Nat := 2 ^ 32 - 1

/-- The largest unsigned 64-bit value. -/
def max64 : Nat := 2 ^ 64 - 1

/-- A saturating sum (00 Conventions, Saturating counts). -/
def satAdd (limit n k : Nat) : Nat := min limit (n + k)

/-- A deadline set at a stamp with a duration (R5). -/
def deadlineAt (stamp duration : Nat) : Nat := satAdd max64 stamp duration

/-! ## Access to the blocks -/

/-- Axis Unit `a`. -/
def State.axis (s : State) (a : AxisId) : Axis := s.axes[a]

/-- Compare list `a`. -/
def State.clist (s : State) (a : AxisId) : CList := s.lists[a]

/-- Capture channel `c`. -/
def State.chan (s : State) (c : ChanId) : Channel := s.channels[c]

/-- Output line `n`. -/
def State.line (s : State) (n : LineId) : Line := s.lines[n]

/-- Monitor slot `m`. -/
def State.slot (s : State) (m : SlotId) : Slot := s.slots[m]

/-- Pair `p`. -/
def State.pair (s : State) (p : PairId) : Pair := s.pairs[p]

/-- The record processor of pair `p`. -/
def State.proc (s : State) (p : PairId) : Proc := s.procs[p]

/-- The posting requests handed for the completion ring of pair `p` and not yet taken there. -/
def State.requests (s : State) (p : PairId) : List CqRequest := s.cqReq[p]

/-- Change Axis Unit `a`. -/
def State.updAxis (s : State) (a : AxisId) (f : Axis → Axis) : State := { s with axes := s.axes.set a (f (s.axis a)) }

/-- Change compare list `a`. -/
def State.updList (s : State) (a : AxisId) (f : CList → CList) : State := { s with lists := s.lists.set a (f (s.clist a)) }

/-- Change capture channel `c`. -/
def State.updChan (s : State) (c : ChanId) (f : Channel → Channel) : State :=
  { s with channels := s.channels.set c (f (s.chan c)) }

/-- Change output line `n`. -/
def State.updLine (s : State) (n : LineId) (f : Line → Line) : State := { s with lines := s.lines.set n (f (s.line n)) }

/-- Change monitor slot `m`. -/
def State.updSlot (s : State) (m : SlotId) (f : Slot → Slot) : State := { s with slots := s.slots.set m (f (s.slot m)) }

/-- Change pair `p`. -/
def State.updPair (s : State) (p : PairId) (f : Pair → Pair) : State := { s with pairs := s.pairs.set p (f (s.pair p)) }

/-- Put the record processor of pair `p` in a state. -/
def State.setProc (s : State) (p : PairId) (x : Proc) : State := { s with procs := s.procs.set p x }

/-- Replace the posting requests handed for the completion ring of pair `p`. -/
def State.setRequests (s : State) (p : PairId) (l : List CqRequest) : State := { s with cqReq := s.cqReq.set p l }

/-- Change every Axis Unit. -/
def State.updAxes (s : State) (f : AxisId → Axis → Axis) : State := { s with axes := Vector.ofFn fun a => f a (s.axis a) }

/-- Change every compare list. -/
def State.updLists (s : State) (f : AxisId → CList → CList) : State :=
  { s with lists := Vector.ofFn fun a => f a (s.clist a) }

/-- Change every capture channel. -/
def State.updChans (s : State) (f : ChanId → Channel → Channel) : State :=
  { s with channels := Vector.ofFn fun c => f c (s.chan c) }

/-- Change every output line. -/
def State.updLines (s : State) (f : LineId → Line → Line) : State := { s with lines := Vector.ofFn fun n => f n (s.line n) }

/-- Change every slot. -/
def State.updSlots (s : State) (f : SlotId → Slot → Slot) : State := { s with slots := Vector.ofFn fun m => f m (s.slot m) }

/-- Change every record processor. -/
def State.updProcs (s : State) (f : PairId → Proc → Proc) : State := { s with procs := Vector.ofFn fun p => f p (s.proc p) }

/-! ## Plain questions -/

/-- An axis counts when it is RUNNING, or HELD with resume target RUNNING (02.2). -/
def Axis.counting (x : Axis) : Bool :=
  match x.state with
  | .running => true
  | .held .running => true
  | _ => false

/-- Whether the axis is HELD. -/
def Axis.isHeld (x : Axis) : Bool :=
  match x.state with
  | .held _ => true
  | _ => false

/-- A COMPARE line bound to the axis (R103). -/
def Line.boundTo (l : Line) (a : AxisId) : Bool :=
  match l.config with
  | .compare b _ => b == a
  | _ => false

/-- A channel bound to the axis; an OFF channel is bound to none (R86). -/
def Channel.boundTo (c : Channel) (a : AxisId) : Bool :=
  match c.config with
  | some g => g.axis == a
  | none => false

/-- The axis that a slot of this kind names, if it names one (R125). -/
def SlotKind.axis : SlotKind → Option AxisId
  | .overspeed a _ => some a
  | .quadError a _ => some a
  | .indexSpacing a => some a
  | .lineFeedback _ => none

/-- The line that a slot of this kind names, if it names one (R125). -/
def SlotKind.line : SlotKind → Option LineId
  | .lineFeedback n => some n
  | _ => none

/-- A severity whose trip sends requests (R131). -/
def Severity.holds : Severity → Bool
  | .warn _ => false
  | .hold => true
  | .latch => true

/-- A TRIPPED slot of severity HOLD or LATCH (R12, R28), with its kind. -/
def Slot.standing (m : Slot) : Option SlotKind :=
  match m.config with
  | some g => if m.state = .tripped ∧ g.severity.holds = true then some g.kind else none
  | none => none

/-- A standing trip names this axis (R12). -/
def State.axisTripNamed (s : State) (a : AxisId) : Bool :=
  s.slots.toList.any fun m =>
    match m.standing with
    | some k => k.axis == some a
    | none => false

/-- A standing trip names this axis, or a COMPARE line bound to it (R28, check 3). -/
def State.axisTripped (s : State) (a : AxisId) : Bool :=
  s.slots.toList.any fun m =>
    match m.standing with
    | some k =>
      k.axis == some a ||
        (match k.line with
        | some n => (s.line n).boundTo a
        | none => false)
    | none => false

/-- A stopped pair (R148): one that holds an error cause, and pair 0 while FAULT is 1. -/
def State.stopped (s : State) (p : PairId) : Bool := if p = 0 then s.fault.isSome else (s.pair p).cause.isSome

/-- Whether the pair has a grant outstanding (R154). -/
def State.granted (s : State) (p : PairId) : Bool :=
  match s.engine with
  | some e => e.pair == p
  | none => false

/-- Whether the pair has a record in progress (R168). -/
def State.inProgress (s : State) (p : PairId) : Bool := s.proc p != .idle

/-! ## The live entries, by where they are (R40) -/

/-- The ARMED entries of a list. -/
def CList.armed (l : CList) : List Entry := l.entries.map fun x => x.entry

/-- The PENDING entries that the activations on a list hold (R44). -/
def CList.held (l : CList) : List Entry := l.activations.flatMap fun k => k.entries.map fun w => w.entry

/-- The batches of a channel: the open one, if any, and the closed ones. -/
def Channel.batches (c : Channel) : List Batch := c.openBatch.toList ++ c.closed

/-- The WAITING entries of a channel. -/
def Channel.waiting (c : Channel) : List Entry := c.batches.flatMap fun b => b.entries.map fun w => w.entry

/-- The PENDING entry that a record in progress holds, if it holds one (R168). -/
def Proc.held : Proc → List Entry
  | .busy _ _ (.inserting e _) => [e]
  | .busy _ _ (.appending w _ _) => [w.entry]
  | _ => []

/-- Every ARMED entry. -/
def State.armedEntries (s : State) : List Entry := s.lists.toList.flatMap CList.armed

/-- Every WAITING entry. -/
def State.waitingEntries (s : State) : List Entry := s.channels.toList.flatMap Channel.waiting

/-- Every PENDING entry. -/
def State.pendingEntries (s : State) : List Entry := s.procs.toList.flatMap Proc.held ++ s.lists.toList.flatMap CList.held

/-- Every live entry. -/
def State.liveEntries (s : State) : List Entry := s.armedEntries ++ s.waitingEntries ++ s.pendingEntries

/-! ## What one block hands to another -/

/-- The Axis Unit hands a message to its compare list (R57). -/
def State.tellList (s : State) (a : AxisId) (m : ListMsg) : State := s.updList a fun l => { l with inbox := l.inbox ++ [m] }

/-- The Axis Unit tells every COMPARE line bound to it (R19, R22, R24). -/
def State.tellLines (s : State) (a : AxisId) (m : LineMsg) : State :=
  s.updLines fun _ l => if l.boundTo a then { l with fromAxis := l.fromAxis ++ [m] } else l

/-- The Axis Unit tells every capture channel bound to it (R12, R19). -/
def State.tellChans (s : State) (a : AxisId) (m : ChanMsg) : State :=
  s.updChans fun _ c => if c.boundTo a then { c with inbox := c.inbox ++ [m] } else c

/-- A compare list sends a fire action to a line (R60, step 1). -/
def State.sendAction (s : State) (n : LineId) (f : FireAction) : State :=
  s.updLine n fun l => { l with fromList := l.fromList ++ [f] }

/-- The Monitor Table sends a notice to a line (R134, R137). -/
def State.tellTrip (s : State) (n : LineId) (m : TripMsg) : State :=
  s.updLine n fun l => { l with fromMonitor := l.fromMonitor ++ [m] }

/-- A hold request is sent to an axis (R134). -/
def State.sendHold (s : State) (a : AxisId) (c : Cause) : State :=
  s.updAxis a fun x => { x with holdReqs := x.holdReqs ++ [c] }

/-- A notice is handed to the posting unit (R157). -/
def State.handNotice (s : State) (n : Notice) : State := { s with nqReq := s.nqReq ++ [n] }

/-- A report is handed to the posting unit for the completion ring of a pair (R156). -/
def State.handReport (s : State) (p : PairId) (q : CqRequest) : State := s.setRequests p (s.requests p ++ [q])

/-! ## The end of a record, and its course -/

/-- The record processor of the pair hands its ack, as the last act of the record (R172). The record stays in progress until the
posting unit takes the ack (R168, log 3). -/
def State.handAck (s : State) (p : PairId) (status : Status) (detail stamp : Nat) : State :=
  match s.proc p with
  | .busy kind cookie _ =>
    (s.handReport p (.ack ⟨kind, cookie, status, detail, stamp⟩)).setProc p (.busy kind cookie .acked)
  | .idle => s

/-- The record in progress goes to a phase. -/
def State.setPhase (s : State) (p : PairId) (ph : Phase) : State :=
  match s.proc p with
  | .busy kind cookie _ => s.setProc p (.busy kind cookie ph)
  | .idle => s

/-- The phase of the pair's record in progress, if there is one. -/
def Proc.phase : Proc → Option Phase
  | .busy _ _ ph => some ph
  | .idle => none

/-- The pair whose fetch read is answered by this record, if the record is of this kind there: a read is outstanding for a pair
that is not stopped (R148), and byte 0 names the kind on that pair's ring (R169). -/
def State.fetchedFor (s : State) (r : Record) (k : Kind) : Option PairId :=
  match s.engine with
  | some e => if s.stopped e.pair = false ∧ Kind.onRing e.pair (r.byte 0) = some k then some e.pair else none
  | none => none

/-- The read of a record is answered with data (R155): the engine is free, the SQ head advances, a status block write of the new
head is queued, and the record is in progress. The step that follows puts it in its phase or hands its ack. -/
def State.startRecord (s : State) (p : PairId) (r : Record) : State :=
  let head := ((s.pair p).sqHead + 1) % (s.pair p).sqSize
  { ((s.updPair p fun q => { q with sqHead := head }).setProc p (.busy (r.byte 0) r.cookie .acked)) with
    engine := none
    writeQ := s.writeQ ++ [.head p head] }

/-- A record of this kind answers the outstanding read and passes steps 1 to 3 of the validation order, or is refused BAD_FIELD
there (R170, R171); a record that passes goes on with `f`. -/
def State.onRecord (s : State) (r : Record) (k : Kind) (f : PairId → State → State) : State :=
  match s.fetchedFor r k with
  | some p =>
    let s := s.startRecord p r
    match badField k r with
    | some ix => s.handAck p .badField ix s.ts
    | none => f p s
  | none => s

/-! ## Retirement (R45) -/

/-- A release notice reaches a BARRIER in progress (R45, R179). -/
def Proc.notify (x : Proc) (group : Byte) (stamp : Nat) : Proc :=
  match x with
  | .busy k c (.waiting b) => .busy k c (.waiting { b with notices := b.notices ++ [(group, stamp)] })
  | _ => x

/-- A DELETE_PAIR that discards pair `p` marks the pool event at which the pair's live count reached 0 (R183). -/
def Proc.noteEmptied (x : Proc) (p : PairId) (live stamp : Nat) : Proc :=
  match x with
  | .busy k c (.discarding q r none) => if q = p ∧ live = 0 then .busy k c (.discarding q r (some stamp)) else x
  | _ => x

/-- The release of an entry (R45): it joins the free set, its pair's live count and its line's reference count fall by one, and
the owner pair's record processor is told. -/
def State.release (s : State) (e : Entry) : State :=
  let live := s.pool.live[e.owner] - 1
  let s := { s with pool := { s.pool with free := s.pool.free + 1, live := s.pool.live.set e.owner live } }
  let s := s.updLine e.line fun l => { l with refCount := l.refCount - 1 }
  s.updProcs fun p x =>
    let x := if p = e.owner then x.notify e.group s.ts else x
    if p = 0 then x.noteEmptied e.owner live s.ts else x

/-- The release of several entries, one after another. -/
def State.releaseAll (s : State) (es : List Entry) : State := es.foldl (fun s e => s.release e) s

/-! ## Holds (R22, R25, R26) -/

/-- Whether a cause is in a hold-cause set. -/
def Causes.has (x : Causes) : Cause → Bool
  | .host => x.host
  | .inhibit => x.inhibit
  | .trip => x.trip
  | .overflow => x.overflow

/-- A hold-cause set with a cause added. -/
def Causes.add (x : Causes) : Cause → Causes
  | .host => { x with host := true }
  | .inhibit => { x with inhibit := true }
  | .trip => { x with trip := true }
  | .overflow => { x with overflow := true }

/-- The empty hold-cause set. -/
def noCauses : Causes := ⟨false, false, false, false⟩

/-- The axis enters HELD: the unit tells its compare list to freeze and each line bound to it to become FORCED (R22). -/
def State.tellHeld (s : State) (a : AxisId) : State := (s.tellList a .freeze).tellLines a .held

/-- A configured axis in RUNNING or STOPPED enters HELD with one cause, with the resume target given, and posts AXIS_HELD
(R25, R26). -/
def State.enterHeld (s : State) (a : AxisId) (c : Cause) (target : Target) : State :=
  let causes := noCauses.add c
  ((s.updAxis a fun x => { x with state := .held target, causes := causes }).tellHeld a).handNotice
    (.axisHeld a (s.axis a).position c causes target s.ts)

/-- The Axis Unit takes a hold request, or a HALT as cause HOST (R25, R26). -/
def State.hold (s : State) (a : AxisId) (c : Cause) : State :=
  match (s.axis a).state with
  | .unconfigured => s
  | .running => s.enterHeld a c .running
  | .stopped => s.enterHeld a c .stopped
  | .held target =>
    if (s.axis a).causes.has c then s
    else
      let causes := (s.axis a).causes.add c
      (s.updAxis a fun x => { x with causes := causes }).handNotice
        (.axisHeld a (s.axis a).position c causes target s.ts)

/-! ## Errors of the Ring Engine (R143, R148, R164) -/

/-- A record write addressed to this ring. -/
def QueuedWrite.recordOf (w : QueuedWrite) (r : RingId) : Bool :=
  match w with
  | .record q _ _ _ => q == r
  | _ => false

/-- A write of this pair's own: a record, an SQ head or a tail. -/
def QueuedWrite.ofPair (w : QueuedWrite) (p : PairId) : Bool :=
  match w with
  | .record q _ _ _ => q == .cq p
  | .head q _ => q == p
  | .tail q _ _ => q == .cq p
  | .snapshot _ _ => false

/-- A snapshot write (R184). -/
def QueuedWrite.isSnapshot : QueuedWrite → Bool
  | .snapshot _ _ => true
  | _ => false

/-- The records accepted for a pair's completion ring and not yet issued are not written and add to its total lost count
(R148, R164, log 11). -/
def State.flushCq (s : State) (p : PairId) : State :=
  { (s.updPair p fun q =>
      { q with totLost := satAdd max32 q.totLost (s.writeQ.filter fun w => w.recordOf (.cq p)).length }) with
    writeQ := s.writeQ.filter fun w => !w.recordOf (.cq p) }

/-- A QUERY whose buffer write is still queued when the admin pair is stopped: the write is not made, and its ack is handed
(R184). -/
def State.dropSnapshot (s : State) : State :=
  match (s.proc 0).phase with
  | some (.querying stamp) =>
    if s.writeQ.any QueuedWrite.isSnapshot then
      ({ s with writeQ := s.writeQ.filter fun w => !w.isSnapshot }).handAck 0 .ok 0 stamp
    else s
  | _ => s

/-- A device fault (R143): the first one sets FAULT with its cause and stops pair 0 (R148); a later one changes nothing. -/
def State.setFault (s : State) (c : ErrorCause) : State :=
  match s.fault with
  | some _ => s
  | none => (({ s with fault := some c }).flushCq 0).dropSnapshot

/-- An index or bus error reaches a work pair (R148): the first one that reaches it while it is ACTIVE or DRAINING sets its
cause; an ACTIVE pair becomes ERROR, and a DRAINING one stays DRAINING. -/
def State.setCause (s : State) (p : PairId) (c : ErrorCause) : State :=
  match (s.pair p).state, (s.pair p).cause with
  | .active, none => (s.updPair p fun q => { q with state := .error, cause := some c }).flushCq p
  | .draining, none => (s.updPair p fun q => { q with cause := some c }).flushCq p
  | _, _ => s

/-- An error that reaches a pair: the device fault for pair 0, the pair's cause for a work pair (R161 to R164). -/
def State.pairError (s : State) (p : PairId) (c : ErrorCause) : State := if p = 0 then s.setFault c else s.setCause p c

end Sys2Proof.Machine
end

