-- ==== Sys2Proof/Machine/Flags.lean ====
section
/-! DEFINITION. What the state shows outside: the levels of the lines (R106), IRQ_PENDING and IRQ_N (R160), the counts of a ring
(R145, R146) and what each offset of the register window reads as (R142, R196). -/

namespace Sys2Proof.Machine

/-! ## Levels of a line -/

/-- The HOST or COMPARE fields of a line, if it is not DISABLED (R103). -/
def Line.drive (l : Line) : Option Drive :=
  match l.config with
  | .disabled => none
  | .host d => some d
  | .compare _ d => some d

/-- The driven logical level (R106): true is active. A DISABLED line is not driven, and the spec gives it no level: where a sample or
a snapshot shows one, it is inactive (DESIGN CHOICE, log 41). -/
def Line.driven (l : Line) : Bool :=
  match l.state with
  | .undriven => false
  | .inactive => false
  | .active => true
  | .pulsing _ => true
  | .forced =>
    match l.drive with
    | some d => d.safe
    | none => false

/-- A level read through a polarity (R106, R119). -/
def Polarity.through : Polarity → Bool → Bool
  | .normal, level => level
  | .inverted, level => !level

/-- The physical level of a line's pin (R106): true is high, none is not driven. -/
def Line.pin (l : Line) : Option Bool := l.drive.map fun d => d.polarity.through l.driven

/-- The feedback level that a line presents at a check (R119): FBn through the feedback polarity, or the driven logical level
when feedback enable is off. The spec gives a DISABLED line no feedback level: it presents its driven level, inactive, here (DESIGN
CHOICE, log 41). -/
def Line.feedbackLevel (l : Line) (fb : Bool) : Bool :=
  match l.drive with
  | some d =>
    match d.feedback with
    | some p => p.through fb
    | none => l.driven
  | none => l.driven

/-- The level of FBn as read through the feedback polarity (R120). A polarity that is not stored, with
feedback enable off or the line DISABLED, reads as NORMAL (log 19). -/
def Line.feedbackRead (l : Line) (fb : Bool) : Bool :=
  match l.drive with
  | some d =>
    match d.feedback with
    | some p => p.through fb
    | none => fb
  | none => fb

/-! ## Rings -/

/-- The records between the done index and the write tail of a completion ring (R146). -/
def Pair.unconsumed (q : Pair) : Nat := (q.cqWrite + q.cqSize - q.cqDone) % q.cqSize

/-- The reservation, 0 or 1 (R146). -/
def Pair.reservedSlots (q : Pair) : Nat := if q.reserved then 1 else 0

/-- The free unreserved slots of a completion ring (R146). -/
def Pair.free (q : Pair) : Nat := q.cqSize - 1 - q.unconsumed - q.reservedSlots

/-- The records between NQ_DONE and the write tail of the notice ring. -/
def NoticeRing.unconsumed (q : NoticeRing) : Nat := (q.write + q.size - q.done) % q.size

/-- The free slots of the notice ring (R157). -/
def NoticeRing.free (q : NoticeRing) : Nat := q.size - 1 - q.unconsumed

/-- Whether a value lies in the span from a done index forward to a published tail (R162). -/
def inSpan (size done pub v : Nat) : Bool :=
  decide (v < size ∧ (v + size - done) % size ≤ (pub + size - done) % size)

/-! ## The interrupt (R160) -/

/-- The bits of IRQ_PENDING, from bit 0 up: one for each completion ring, one for the notice ring, one for FAULT. -/
def State.irqBits (s : State) : List Bool :=
  s.pairs.toList.map (fun q => q.cqPub != q.cqDone) ++ [s.nq.pub != s.nq.done, s.fault.isSome]

/-- The number that a list of bits spells, bit 0 first. -/
def bitsNat : List Bool → Nat
  | [] => 0
  | b :: bs => b.toNat + 2 * bitsNat bs

/-- IRQ_PENDING (R160, R196). -/
def State.irqPending (s : State) : BitVec 11 := BitVec.ofNat 11 (bitsNat s.irqBits)

/-- Whether IRQ_N is asserted, low (R160): at least one pending bit whose enable is 1. -/
def State.irqAsserted (s : State) : Bool := (s.irqPending &&& s.irqMask) != 0

/-! ## The register window (R142, R196) -/

/-- STATUS (R143, R196): READY, FAULT, the fault cause and RESET_CAUSE. -/
def State.statusWord (s : State) : Nat :=
  (if s.resetting.isNone then 1 else 0) + (if s.fault.isSome then 2 else 0) +
    2 ^ 8 * (match s.fault with
      | some c => c.code
      | none => 0) +
    2 ^ 16 * (match s.resetCause with
      | .full => 0
      | .soft => 1)

/-- IDENT word 0 (R196): the vendor and part codes and the revision, a free value (log 20). -/
def identWord0 : Nat := 0x4B5A + 2 ^ 16 * 0xC416 + 2 ^ 32 * Config.revision.toNat

/-- IDENT word 1 (R196): the block counts. -/
def identWord1 : Nat := 4 + 2 ^ 8 * 16 + 2 ^ 16 * 8 + 2 ^ 24 * 24 + 2 ^ 32 * 8 + 2 ^ 48 * 2048

/-- The value of the 8-byte place that starts at an offset (R196): its register, in the low half if that has 32 bits. A place that
holds no register reads as 0 (R142). -/
def State.register (s : State) (offset : BitVec 12) : W64 :=
  let o := offset.toNat
  if o = 0x000 then BitVec.ofNat 64 identWord0
  else if o = 0x008 then BitVec.ofNat 64 identWord1
  else if o = 0x010 then BitVec.ofNat 64 s.enable.toNat
  else if o = 0x018 then BitVec.ofNat 64 s.statusWord
  else if o = 0x020 then s.sbBase
  else if o = 0x028 then (s.pair 0).sqBase
  else if o = 0x030 then (s.pair 0).cqBase
  else if o = 0x038 then BitVec.ofNat 64 ((s.pair 0).sqSize + 2 ^ 16 * (s.pair 0).cqSize)
  else if o = 0x040 then s.irqMask.zeroExtend 64
  else if o = 0x048 then s.irqPending.zeroExtend 64
  else if 0x100 ≤ o ∧ o ≤ 0x140 ∧ o % 8 = 0 then BitVec.ofNat 64 (s.pair (Fin.ofNat 9 ((o - 0x100) / 8))).sqPost
  else if 0x200 ≤ o ∧ o ≤ 0x240 ∧ o % 8 = 0 then BitVec.ofNat 64 (s.pair (Fin.ofNat 9 ((o - 0x200) / 8))).cqDone
  else if o = 0x280 then BitVec.ofNat 64 s.nq.done
  else 0

/-- The value of a place of the window as a read finds it (R142): while READY is 0 it is the value that the place is reset to, with
READY 0. -/
def State.placeRead (s : State) (place : BitVec 12) : W64 :=
  match s.resetting with
  | some _ => (State.cleared s.ts s.resetting s.resetCause s.pins s.pending).register place
  | none => s.register place

/-- What a read of the window at an offset returns (R142, R196): the bytes from the offset to the end of its 8-byte place,
little-endian. At the place's first byte it is the whole place, and four bytes on its high half (log 27). -/
def State.windowRead (s : State) (offset : BitVec 12) : W64 :=
  s.placeRead (offset &&& 0xFF8) >>> (8 * (offset.toNat % 8))

/-- A 64-bit register after an access writes it (R142): the whole of it, or one 32-bit half. The value of a half access stands in
that half's place. -/
def mergeAccess (access : Access) (old value : W64) : W64 :=
  match access with
  | .whole => value
  | .low => (old &&& 0xFFFFFFFF00000000) ||| (value &&& 0x00000000FFFFFFFF)
  | .high => (old &&& 0x00000000FFFFFFFF) ||| (value &&& 0xFFFFFFFF00000000)

/-- A base address with its low bits forced to 0 (R144). -/
def alignDown (bits : Nat) (value : W64) : W64 := (value >>> bits) <<< bits

end Sys2Proof.Machine
end

