-- ==== Sys2Proof/Machine/Layouts.lean ====
section
/-! DEFINITION. The bytes the part writes (10): completion and notice records (R194), status block fields (R195) and snapshots
(R197). -/

namespace Sys2Proof.Machine

/-! ## Little-endian fields -/

/-- The `n` bytes of a value, least significant first (R189). -/
def le : Nat → Nat → List Byte
  | 0, _ => []
  | n + 1, v => BitVec.ofNat 8 v :: le n (v / 2 ^ 8)

/-- The `n` bytes of a signed value in two's complement, least significant first. -/
def leInt (n : Nat) (v : Int) : List Byte := le n (v % 2 ^ (8 * n)).toNat

/-- A byte of flags, from bit 0 up. -/
def flagByte (bits : List Bool) : List Byte := le 1 (bitsNat bits)

/-- `n` reserved bytes, written as 0 (R189). -/
def zeros (n : Nat) : List Byte := List.replicate n 0

/-! ## Completion and notice records (R194) -/

/-- The 32 bytes of a completion record, with its lost_before (R194). -/
def CqRequest.bytes (q : CqRequest) (lost : Nat) : List Byte :=
  match q with
  | .ack k =>
    [0x80, k.kind] ++ le 2 lost ++ le 4 k.cookie.toNat ++ le 2 k.status.code ++ zeros 2 ++ le 4 k.detail ++ zeros 8 ++ le 8 k.stamp
  | .fire f =>
    [0x81, BitVec.ofNat 8 f.axis] ++ le 2 lost ++ le 4 f.tag.toNat ++ leInt 4 f.pos ++ le 2 f.occurrence ++ le 1 f.dir.code ++
      flagByte [f.final] ++ le 8 f.serial ++ le 8 f.stamp
  | .retire r =>
    [0x82, BitVec.ofNat 8 r.axis] ++ le 2 lost ++ le 4 r.tag.toNat ++ leInt 4 r.pos ++ le 2 r.occurrence ++ le 1 r.reason.code ++
      zeros 1 ++ le 8 r.serial ++ le 8 r.stamp

/-- The subject of a slot, an axis or a line, as a number (R125). -/
def SlotKind.subject : SlotKind → Nat
  | .overspeed a _ => a
  | .quadError a _ => a
  | .indexSpacing a => a
  | .lineFeedback n => n

/-- The 32 bytes of a notice, with its lost_before (R194). -/
def Notice.bytes (n : Notice) (lost : Nat) : List Byte :=
  match n with
  | .capture c pos activated held unclaimed serial stamp =>
    [0xC0, BitVec.ofNat 8 c] ++ le 2 lost ++ leInt 4 pos ++ le 1 activated ++ flagByte [held, unclaimed] ++ zeros 6 ++
      le 8 serial ++ le 8 stamp
  | .homeDone a before after serial stamp =>
    [0xC1, BitVec.ofNat 8 a] ++ le 2 lost ++ leInt 4 before ++ leInt 4 after ++ zeros 4 ++ le 8 serial ++ le 8 stamp
  | .indexCorrected a before after serial stamp =>
    [0xC2, BitVec.ofNat 8 a] ++ le 2 lost ++ leInt 4 before ++ leInt 4 after ++ zeros 4 ++ le 8 serial ++ le 8 stamp
  | .axisHeld a pos cause set target stamp =>
    [0xC3, BitVec.ofNat 8 a] ++ le 2 lost ++ leInt 4 pos ++ le 1 cause.code ++ le 1 set.code ++ le 1 target.code ++ zeros 5 ++
      zeros 8 ++ le 8 stamp
  | .monitorTripped m cfg value run stamp =>
    [0xC4, BitVec.ofNat 8 m] ++ le 2 lost ++ le 4 value ++ le 1 cfg.kind.code ++ le 1 cfg.severity.code ++ le 1 cfg.kind.subject ++
      le 1 run ++ zeros 4 ++ zeros 8 ++ le 8 stamp
  | .monitorRecovered m cfg value run stamp =>
    [0xC5, BitVec.ofNat 8 m] ++ le 2 lost ++ le 4 value ++ le 1 cfg.kind.code ++ le 1 cfg.severity.code ++ le 1 cfg.kind.subject ++
      le 1 run ++ zeros 4 ++ zeros 8 ++ le 8 stamp

/-! ## Where and what the write engine writes (R159, R195) -/

/-- The address of an accepted write: a slot of its ring (R145), a field of the status block (R195), or the QUERY's buffer. -/
def State.writeAddr (s : State) (w : QueuedWrite) : W64 :=
  match w with
  | .record (.cq p) slot _ _ => (s.pair p).cqBase + BitVec.ofNat 64 (32 * slot)
  | .record .nq slot _ _ => s.nq.base + BitVec.ofNat 64 (32 * slot)
  | .head p _ => s.sbBase + BitVec.ofNat 64 (16 * p.val)
  | .tail (.cq p) _ _ => s.sbBase + BitVec.ofNat 64 (16 * p.val + 2)
  | .tail .nq _ _ => s.sbBase + 144
  | .snapshot addr _ => addr

/-- The bytes of an accepted write: 32 for a record, 2 for a status block field, 64 for a snapshot. -/
def QueuedWrite.bytes : QueuedWrite → List Byte
  | .record _ _ _ data => data
  | .head _ v => le 2 v
  | .tail _ v _ => le 2 v
  | .snapshot _ data => data

/-! ## Snapshots (R197) -/

/-- The AXIS snapshot (R35, R197). An unconfigured axis shows zero configuration bytes. -/
def Axis.snapshot (x : Axis) : List Byte :=
  let cfg (f : AxisConfig → Nat) : Nat := match x.config with
    | some g => f g
    | none => 0
  let preset : Int := match x.config with
    | some g => g.preset
    | none => 0
  le 1 x.state.code ++
    le 1 (match x.state with
      | .held t => t.code
      | _ => 0) ++
    le 1 x.causes.code ++
    le 1 (match x.lastDir with
      | some d => d.code
      | none => 0) ++
    flagByte [x.homePending, x.spacingError, x.prevIndex, x.holdIn] ++
    le 1 (cfg fun g => match g.source with
      | .quad _ _ => 0
      | .stepdir _ => 1
      | .timebase _ _ => 2) ++
    le 1 (cfg fun g => match g.source with
      | .quad d _ => d.code
      | _ => 0) ++
    le 1 (cfg fun g => match g.kind with
      | .linear => 0
      | .rotary _ => 1) ++
    leInt 4 x.position ++
    le 4 (cfg fun g => match g.kind with
      | .linear => 0
      | .rotary m => m) ++
    le 8 x.serial ++ le 4 x.moved ++ le 4 x.illegal ++
    le 4 (cfg fun g => match g.source with
      | .timebase p _ => p
      | _ => 0) ++
    leInt 4 preset ++ le 4 (cfg fun g => g.spacing) ++ le 2 (cfg fun g => g.tolerance) ++ le 2 (cfg fun g => g.lateWindow) ++
    le 1 (cfg fun g => g.indexMode.code) ++ le 1 (cfg fun g => g.indexDir.code) ++
    le 1 (cfg fun g => match g.source with
      | .timebase _ d => d.code
      | _ => 0) ++
    le 1 (cfg fun g => match g.source with
      | .quad _ i => i.toNat
      | .stepdir i => i.toNat
      | .timebase _ _ => 0) ++
    le 4 x.prescaler ++ leInt 8 x.net

/-- The LINE snapshot (R120, R197), with the level of FBn at it. -/
def Line.snapshot (l : Line) (fb : Bool) : List Byte :=
  let drv (f : Drive → Nat) : Nat := match l.drive with
    | some d => f d
    | none => 0
  let ends : PulseEnds := match l.state with
    | .pulsing e => e
    | _ => ⟨none, none⟩
  le 1 (match l.config with
      | .disabled => 0
      | .host _ => 1
      | .compare _ _ => 2) ++
    le 1 l.state.code ++
    le 1 (match l.config with
      | .compare a _ => a.val
      | _ => 0) ++
    le 1 (drv fun d => d.polarity.code) ++ le 1 (drv fun d => d.safe.toNat) ++ le 1 (drv fun d => d.retrigger.code) ++
    le 1 (drv fun d => d.feedback.isSome.toNat) ++
    le 1 (drv fun d => match d.feedback with
      | some p => p.code
      | none => 0) ++
    flagByte [l.driven, l.feedbackRead fb, l.holdIn, l.axisHeld, ends.serial.isSome, ends.tick.isSome] ++
    le 1 l.tripCount ++ le 2 l.refCount ++ le 4 l.suppressed ++ le 8 (ends.serial.getD 0) ++ le 8 (ends.tick.getD 0) ++ zeros 32

/-- The CAPTURE snapshot (R101, R197). An OFF channel shows zero configuration bytes. -/
def Channel.snapshot (c : Channel) : List Byte :=
  let cfg (f : ChanConfig → Nat) : Nat := match c.config with
    | some g => f g
    | none => 0
  let window : Int × Int := match c.config with
    | some g => g.window.getD (0, 0)
    | none => (0, 0)
  let last : Capture := c.last.getD ⟨0, 0, 0⟩
  le 1 c.state.code ++ le 1 (cfg fun g => g.input) ++ le 1 (cfg fun g => g.edge.code) ++ le 1 (cfg fun g => g.axis) ++
    flagByte [cfg (fun g => g.window.isSome.toNat) == 1, cfg (fun g => g.report.toNat) == 1, c.last.isSome, c.openBatch.isSome] ++
    le 1 (match c.openBatch with
      | some b => b.owner.val
      | none => 0) ++
    le 1 (match c.openBatch with
      | some b => b.entries.length
      | none => 0) ++
    le 1 c.closed.length ++ leInt 4 window.1 ++ leInt 4 window.2 ++ le 4 (cfg fun g => g.lockout) ++
    le 1 (match c.closed with
      | b :: _ => b.owner.val
      | [] => 0) ++
    le 1 (match c.closed with
      | b :: _ => b.entries.length
      | [] => 0) ++
    zeros 2 ++ le 4 c.rejected ++ le 4 c.unclaimed ++
    le 8 (match c.state with
      | .lockout e => e
      | _ => 0) ++
    leInt 4 last.pos ++ zeros 4 ++ le 8 last.serial ++ le 8 last.stamp

/-- The MONITOR snapshot of a slot and the global setting (R140, R197). An OFF slot shows zero configuration bytes. -/
def Slot.snapshot (m : Slot) (g : Monitor) : List Byte :=
  let cfg (f : SlotConfig → Nat) : Nat := match m.config with
    | some c => f c
    | none => 0
  le 1 m.state.code ++ le 1 (cfg fun c => c.kind.code) ++ le 1 (cfg fun c => c.kind.subject) ++ le 1 (cfg fun c => c.qualify) ++
    le 1 (cfg fun c => match c.severity with
      | .warn r => r
      | _ => 0) ++
    le 1 (cfg fun c => c.severity.code) ++ le 1 m.presentRun ++ le 1 m.absentRun ++
    flagByte [m.opening, m.last.isSome, (match m.last with
      | some x => x.present
      | none => false), g.enable] ++
    zeros 1 ++ le 2 g.period ++
    le 4 (match m.last with
      | some x => x.value
      | none => 0) ++
    le 4 (cfg fun c => match c.kind with
      | .overspeed _ t => t
      | .quadError _ t => t
      | _ => 0) ++
    zeros 4 ++ le 8 (g.deadline.getD 0) ++ zeros 32

/-- The state that a QUERY of class PAIR shows for a pair: pair 0 shows ACTIVE or ERROR by FAULT (R148). -/
def State.shownPairState (s : State) (p : PairId) : PairState :=
  if p = 0 then (if s.fault.isSome then .error else .active) else (s.pair p).state

/-- The discard flag of a DRAINING pair, held by the DELETE_PAIR in progress (R150, R167). -/
def State.discardFlag (s : State) (p : PairId) : Bool :=
  match (s.proc 0).phase with
  | some (.draining q d) => q == p && d
  | some (.discarding q _ _) => q == p
  | _ => false

/-- The PAIR snapshot of a pair (R167, R197). -/
def State.pairSnapshot (s : State) (p : PairId) : List Byte :=
  let q := s.pair p
  le 1 (s.shownPairState p).code ++
    le 1 (match q.cause with
      | some c => c.code
      | none => 0) ++
    flagByte [s.discardFlag p, s.granted p, s.inProgress p] ++ le 1 q.reservedSlots ++ le 2 q.sqSize ++ le 2 q.cqSize ++
    le 8 q.sqBase.toNat ++ le 8 q.cqBase.toNat ++ le 2 q.sqHead ++ le 2 q.sqPost ++ le 2 q.cqWrite ++ le 2 q.cqPub ++
    le 2 q.cqDone ++ zeros 2 ++ le 4 q.pendLost ++ le 4 q.totLost ++ zeros 20

/-- The PAIR snapshot of the notice ring, at index 9 (R167, R197). -/
def NoticeRing.snapshot (q : NoticeRing) : List Byte :=
  le 1 q.state.code ++ zeros 5 ++ le 2 q.size ++ zeros 8 ++ le 8 q.base.toNat ++ zeros 4 ++ le 2 q.write ++ le 2 q.pub ++
    le 2 q.done ++ zeros 2 ++ le 4 q.pendLost ++ le 4 q.totLost ++ zeros 20

/-- The POOL snapshot (R53, R197). -/
def State.poolSnapshot (s : State) : List Byte :=
  le 2 s.pool.free ++ le 2 s.pendingEntries.length ++ le 2 s.waitingEntries.length ++ le 2 s.armedEntries.length ++
    ([1, 2, 3, 4, 5, 6, 7, 8] : List PairId).flatMap (fun p =>
      le 1 (if (s.pair p).state = .absent then 0 else 1) ++ zeros 1 ++ le 2 s.pool.quota[p] ++ le 2 s.pool.live[p]) ++
    zeros 8

end Sys2Proof.Machine
end

