-- ==== Sys2Proof/Machine/Timebase.lean ====
section
/-! DEFINITION. The offer of a tick to the owners of time-based state (R5, R7), and the resets (R2, R166): FULL_RESET, SOFT_RESET,
RESET_DONE. -/

namespace Sys2Proof.Machine

/-- An axis that advances its prescaler at each tick: a TIMEBASE axis that counts (R18). -/
def Axis.prescales (x : Axis) : Bool :=
  match x.config with
  | some g =>
    match g.source with
    | .timebase _ _ => x.counting
    | _ => false
  | none => false

/-- The end timestamp that a line holds (R106). -/
def Line.tickEnd (l : Line) : Option Nat :=
  match l.state with
  | .pulsing e => e.tick
  | _ => none

/-- Whether a deadline that a tick of this timestamp is offered to has expired (R5): it expires at the first tick, offered after it was
set, whose timestamp is at or past it. -/
def expiresAt (expired : Bool) (deadline : Option Nat) (ts : Nat) : Bool :=
  expired || match deadline with
    | some d => decide (d ≤ ts)
    | none => false

/-- A tick is offered to a BARRIER (R7). -/
def Proc.offerTick (x : Proc) (ts : Nat) : Proc :=
  match x with
  | .busy k c (.waiting b) => .busy k c (.waiting { b with expired := expiresAt b.expired b.deadline ts })
  | _ => x

/-- The tick of the current timestamp is offered to every block that holds time-based state (R7); each takes it by a command of its
own. -/
def State.offerTick (s : State) : State :=
  { (((s.updAxes fun _ x => if x.prescales then { x with tick := true } else x).updLines fun _ l =>
        if l.tickEnd.isSome then { l with tick := true } else l).updProcs fun _ x => x.offerTick s.ts) with
    monitor := { s.monitor with expired := expiresAt s.monitor.expired s.monitor.deadline s.ts } }

/-- The processor of a pair takes the expiry of its BARRIER's deadline, if the deadline has expired (R180). -/
def State.timeOut (s : State) (p : PairId) : State :=
  match (s.proc p).phase with
  | some (.waiting b) => if b.expired then s.handAck p .timedOut b.remaining s.ts else s
  | _ => s

/-- FULL_RESET (R166): every block takes its full-reset values, the timestamp becomes 0 (R2), RESET_CAUSE names the reset, and READY
is 0 until RESET_DONE (log 25). The waiting commands are not the part's. -/
def execFullReset (pins : Pins) (s : State) : Host.Outcome State Fault Refusal :=
  .next (State.cleared 0 (some .full) .full pins s.pending)

/-- A register write takes effect only while READY is 1 (R142). -/
def State.whenReady (s : State) (f : State → State) : State :=
  match s.resetting with
  | some _ => s
  | none => f s

/-- A soft reset starts (R143, R166): as a full reset, but that the timestamp runs on (R2). -/
def State.softReset (s : State) (pins : Pins) : State := State.cleared s.ts (some .soft) .soft pins s.pending

/-- SOFT_RESET (R143, R166). It is a register write, so while READY is 0 it is ignored (R142, log 25). -/
def execSoftReset (pins : Pins) (s : State) : Host.Outcome State Fault Refusal :=
  .next (s.whenReady fun s => s.softReset pins)

/-- The reset in progress may end (R2): a soft reset ends after a tick event taken since it started, so that the first stamp after
it is larger than every stamp before it (log 35). -/
def State.resetEnds (s : State) : Bool :=
  match s.resetting with
  | some .full => true
  | some .soft => s.resetTick
  | none => false

/-- RESET_DONE (R166): READY becomes 1. -/
def execResetDone (s : State) : Host.Outcome State Fault Refusal :=
  .next (if s.resetEnds then { s with resetting := none } else s)

end Sys2Proof.Machine
end

