-- ==== Sys2Proof/Machine/Window.lean ====
section
/-! DEFINITION. Writes to the register window (08.1, 08.6). While READY is 0 every one of them is ignored (R142). -/

namespace Sys2Proof.Machine

/-- The admin pair has neither a grant outstanding nor a record in progress (R144). -/
def State.adminIdle (s : State) : Bool := !s.granted 0 && !s.inProgress 0

/-- The condition under which the admin ring registers take a write (R144). -/
def State.adminOpen (s : State) : Bool := !s.enable && s.adminIdle

/-- No work pair is present. -/
def State.noWorkPair (s : State) : Bool :=
  ([1, 2, 3, 4, 5, 6, 7, 8] : List PairId).all fun p => decide ((s.pair p).state = .absent)

/-! ## The effect of each write, READY being 1 -/

/-- STATUS_BLOCK_BASE takes a write (R144). -/
def State.writeStatusBlockBase (s : State) (access : Access) (value : W64) : State :=
  if s.adminOpen = true ∧ s.noWorkPair = true ∧ s.nq.state = .unset then
    { s with sbBase := alignDown 8 (mergeAccess access s.sbBase value) }
  else s

/-- The admin submission ring starts afresh (R144): SQ head and SQ_POST[0] become 0. -/
def State.restartAdminSq (s : State) : State := s.updPair 0 fun q => { q with sqHead := 0, sqPost := 0 }

/-- A write of a record or of a tail of this pair's completion ring. -/
def QueuedWrite.ofCq (w : QueuedWrite) (p : PairId) : Bool :=
  match w with
  | .record q _ _ _ => q == .cq p
  | .tail q _ _ => q == .cq p
  | _ => false

/-- A write on the bus for this pair's completion ring completes without moving any index (R144). -/
def BusWrite.staleFor (w : BusWrite) (p : PairId) : BusWrite := { w with stale := w.stale || w.write.ofCq p }

/-- The admin completion ring starts afresh (R144): tails, reservation, CQ_DONE[0] and lost counts become 0, and what is accepted
for it and not yet issued is discarded without being counted. -/
def State.restartAdminCq (s : State) : State :=
  { (s.updPair 0 fun q =>
      { q with cqWrite := 0, cqPub := 0, cqDone := 0, reserved := false, pendLost := 0, totLost := 0 }) with
    writeQ := s.writeQ.filter fun w => !w.ofCq 0
    onBus := s.onBus.map fun w => w.staleFor 0 }

/-- ADMIN_SQ_BASE takes a write (R144). -/
def State.writeAdminSqBase (s : State) (access : Access) (value : W64) : State :=
  if s.adminOpen then
    (s.updPair 0 fun q => { q with sqBase := alignDown 10 (mergeAccess access q.sqBase value) }).restartAdminSq
  else s

/-- ADMIN_CQ_BASE takes a write (R144). -/
def State.writeAdminCqBase (s : State) (access : Access) (value : W64) : State :=
  if s.adminOpen then
    (s.updPair 0 fun q => { q with cqBase := alignDown 9 (mergeAccess access q.cqBase value) }).restartAdminCq
  else s

/-- ADMIN_SIZES takes a write (R144): both sizes are written by the one 32-bit access; a size that is no power of two in 16..4096
makes the part ignore the whole write (log 24). -/
def State.writeAdminSizes (s : State) (value : W32) : State :=
  let sq := value.toNat % 2 ^ 16
  let cq := value.toNat / 2 ^ 16
  if s.adminOpen = true ∧ ringSize sq = true ∧ ringSize cq = true then
    ((s.updPair 0 fun q => { q with sqSize := sq, cqSize := cq }).restartAdminSq).restartAdminCq
  else s

/-- SQ_POST[p] takes a write (R161). The written value is compared whole, all 32 bits, with the size (R196). -/
def State.writeSqPost (s : State) (p : PairId) (value : W32) : State :=
  let v := value.toNat
  let q := s.pair p
  if p = 0 then
    if v < q.sqSize then s.updPair 0 fun q => { q with sqPost := v } else s.setFault .postRange
  else if (q.state = .active ∨ q.state = .draining) ∧ q.cause = none then
    if v < q.sqSize then s.updPair p fun q => { q with sqPost := v } else s.setCause p .postRange
  else s

/-- CQ_DONE[p] takes a write (R162). -/
def State.writeCqDone (s : State) (p : PairId) (value : W32) : State :=
  let v := value.toNat
  let q := s.pair p
  if q.state = .absent then s
  else if inSpan q.cqSize q.cqDone q.cqPub v then s.updPair p fun q => { q with cqDone := v }
  else s.pairError p .doneRange

/-- The notice ring enters ERROR (R162, R164): the notices accepted for it and not yet issued are not written and add to its total
lost count (R152, log 12). -/
def State.failNoticeRing (s : State) : State :=
  { s with
    nq := { s.nq with
      state := .error
      totLost := satAdd max32 s.nq.totLost (s.writeQ.filter fun w => w.recordOf .nq).length }
    writeQ := s.writeQ.filter fun w => !w.recordOf .nq }

/-- NQ_DONE takes a write (R162). -/
def State.writeNqDone (s : State) (value : W32) : State :=
  let v := value.toNat
  if s.nq.state = .unset then s
  else if inSpan s.nq.size s.nq.done s.nq.pub v then { s with nq := { s.nq with done := v } }
  else if s.nq.state = .active then s.failNoticeRing
  else s

/-- IRQ_MASK takes a write (R160, R196): bits 0 to 10 are stored; a write to a reserved bit is ignored (R189). -/
def State.writeIrqMask (s : State) (value : W32) : State := { s with irqMask := value.truncate 11 }

/-- CONTROL takes a write (R143, R196): with SOFT_RESET 1 a soft reset starts, at which each input pin presents the level it last
presented (log 39), and otherwise ENABLE takes its bit. -/
def State.writeControl (s : State) (value : W32) : State :=
  if value.getLsbD 1 then s.softReset s.pins else { s with enable := value.getLsbD 0 }

/-- A write at an offset (R142, R196): of the whole 8-byte place, of which a 32-bit register takes the low half; or, at the upper half
of a 64-bit register's place, of that half, which takes the low 32 bits of the data (log 39). A write to IDENT, STATUS or IRQ_PENDING,
or to an offset that holds no register, is ignored. -/
def State.writeRegister (s : State) (offset : BitVec 12) (value : W64) : State :=
  let o := offset.toNat
  let low : W32 := value.truncate 32
  if o = 0x010 then s.writeControl low
  else if o = 0x020 then s.writeStatusBlockBase .whole value
  else if o = 0x024 then s.writeStatusBlockBase .high (value <<< 32)
  else if o = 0x028 then s.writeAdminSqBase .whole value
  else if o = 0x02C then s.writeAdminSqBase .high (value <<< 32)
  else if o = 0x030 then s.writeAdminCqBase .whole value
  else if o = 0x034 then s.writeAdminCqBase .high (value <<< 32)
  else if o = 0x038 then s.writeAdminSizes low
  else if o = 0x040 then s.writeIrqMask low
  else if 0x100 ≤ o ∧ o ≤ 0x140 ∧ o % 8 = 0 then s.writeSqPost (Fin.ofNat 9 ((o - 0x100) / 8)) low
  else if 0x200 ≤ o ∧ o ≤ 0x240 ∧ o % 8 = 0 then s.writeCqDone (Fin.ofNat 9 ((o - 0x200) / 8)) low
  else if o = 0x280 then s.writeNqDone low
  else s

/-! ## The commands -/

/-- ENABLE_WRITE (R143): ENABLE takes the written value; a grant already made and the records in progress go on (R165). -/
def execEnableWrite (enable : Bool) (s : State) : Host.Outcome State Fault Refusal :=
  .next (s.whenReady fun s => { s with enable := enable })

/-- STATUS_BLOCK_BASE_WRITE (R144). -/
def execStatusBlockBaseWrite (access : Access) (value : W64) (s : State) : Host.Outcome State Fault Refusal :=
  .next (s.whenReady fun s => s.writeStatusBlockBase access value)

/-- ADMIN_SQ_BASE_WRITE (R144). -/
def execAdminSqBaseWrite (access : Access) (value : W64) (s : State) : Host.Outcome State Fault Refusal :=
  .next (s.whenReady fun s => s.writeAdminSqBase access value)

/-- ADMIN_CQ_BASE_WRITE (R144). -/
def execAdminCqBaseWrite (access : Access) (value : W64) (s : State) : Host.Outcome State Fault Refusal :=
  .next (s.whenReady fun s => s.writeAdminCqBase access value)

/-- ADMIN_SIZES_WRITE (R144). -/
def execAdminSizesWrite (value : W32) (s : State) : Host.Outcome State Fault Refusal :=
  .next (s.whenReady fun s => s.writeAdminSizes value)

/-- SQ_POST_WRITE (R161). While FAULT is 1 the table of R161 ignores every write to pair 0, which is in state ERROR then (R148), and
its sentence on pair 0 stores a value below the size; the model stores it (DESIGN CHOICE, log 36). -/
def execSqPostWrite (p : PairId) (value : W32) (s : State) : Host.Outcome State Fault Refusal :=
  .next (s.whenReady fun s => s.writeSqPost p value)

/-- CQ_DONE_WRITE (R162). -/
def execCqDoneWrite (p : PairId) (value : W32) (s : State) : Host.Outcome State Fault Refusal :=
  .next (s.whenReady fun s => s.writeCqDone p value)

/-- NQ_DONE_WRITE (R162). -/
def execNqDoneWrite (value : W32) (s : State) : Host.Outcome State Fault Refusal :=
  .next (s.whenReady fun s => s.writeNqDone value)

/-- IRQ_MASK_WRITE (R160, R196). -/
def execIrqMaskWrite (value : W32) (s : State) : Host.Outcome State Fault Refusal :=
  .next (s.whenReady fun s => s.writeIrqMask value)

/-- REGISTER_WRITE (R142): a write by offset. At an offset that takes no write, or while READY is 0, it is ignored and leaves no
trace; at the offset of a writable register it is a write of that register (log 39). -/
def execRegisterWrite (offset : BitVec 12) (value : W64) (s : State) : Host.Outcome State Fault Refusal :=
  .next (s.whenReady fun s => s.writeRegister offset value)

end Sys2Proof.Machine
end

