-- ==== Sys2Proof/Machine/Axis.lean ====
section
/-! DEFINITION. The events of an Axis Unit (02): samples of its inputs, the prescaler, the index input, HOLD_IN and hold
requests. -/

namespace Sys2Proof.Machine

/-! ## Decoding the inputs (R13 to R17) -/

/-- What a sample of A and B is to an axis: a count in a direction, an illegal transition, or no more than a new reference. -/
inductive SampleKind where
  | count (d : Dir)
  | illegal
  | reference
  deriving DecidableEq, Repr

/-- The opposite direction. -/
def Dir.flip : Dir → Dir
  | .fwd => .rev
  | .rev => .fwd

/-- The direction, exchanged when invert is on (R14). -/
def Dir.inverted (d : Dir) (invert : Bool) : Dir := if invert then d.flip else d

/-- A QUAD sample (R14 to R16): a change of both levels is illegal; a change of A is forward when A and B then differ, a change
of B when they then agree; X2 counts the changes of A, X1 its rising changes. -/
def quadSample (decode : DecodeMode) (invert refA refB chA chB : Bool) : SampleKind :=
  if chA != refA && chB != refB then .illegal
  else if chA != refA then
    let d : Dir := if chA != chB then .fwd else .rev
    match decode with
    | .x1 => if chA then .count (d.inverted invert) else .reference
    | .x2 => .count (d.inverted invert)
    | .x4 => .count (d.inverted invert)
  else if chB != refB then
    let d : Dir := if chA == chB then .fwd else .rev
    match decode with
    | .x4 => .count (d.inverted invert)
    | _ => .reference
  else .reference

/-- A STEPDIR sample (R17): a rising edge on STEP counts in the direction of DIR. -/
def stepSample (invert refA chA chB : Bool) : SampleKind :=
  if chA && !refA then .count ((if chB then Dir.fwd else Dir.rev).inverted invert) else .reference

/-- What a sample is to an axis. While the axis is not counting, and on a TIMEBASE axis, it is no more than a new reference
(R13, R18). -/
def Axis.sample (x : Axis) (chA chB : Bool) : SampleKind :=
  if x.counting then
    match x.config with
    | some g =>
      match g.source with
      | .quad decode invert => quadSample decode invert x.refA x.refB chA chB
      | .stepdir invert => stepSample invert x.refA chA chB
      | .timebase _ _ => .reference
    | none => .reference
  else .reference

/-- The sample becomes the decoder reference (R13), and the pins show its levels. -/
def State.takeSample (s : State) (a : AxisId) (chA chB : Bool) : State :=
  { (s.updAxis a fun x => { x with refA := chA, refB := chB }) with
    pins := { s.pins with encA := s.pins.encA.set a chA, encB := s.pins.encB.set a chB } }

/-! ## The count event (R19 to R21) -/

/-- The step of a direction. -/
def Dir.step : Dir → Int
  | .fwd => 1
  | .rev => -1

/-- A position within the range of a LINEAR axis (R20). -/
def linearRange (p : Int) : Bool := decide (-(2 ^ 31) ≤ p ∧ p ≤ 2 ^ 31 - 1)

/-- The position after a count: none when it would leave the range of a LINEAR axis (R20); reduced modulo M on a ROTARY axis
(R21). -/
def AxisKind.moved (k : AxisKind) (p : Int) (d : Dir) : Option Int :=
  match k with
  | .linear => if linearRange (p + d.step) then some (p + d.step) else none
  | .rotary m => some ((p + d.step) % m)

/-- The axis after a count event in range (R19). -/
def Axis.counted (x : Axis) (d : Dir) (pos : Int) : Axis :=
  { x with
    position := pos
    serial := satAdd max64 x.serial 1
    lastDir := some d
    moved := satAdd max32 x.moved 1
    net := x.net + d.step }

/-- The unit hands the count event to its compare list, the lines bound to it and the channels bound to it (R19). -/
def State.tellCount (s : State) (a : AxisId) (k : Count) : State :=
  ((s.tellList a (.count k)).tellLines a (.count k.serial)).tellChans a (.count k.serial)

/-- A count event at an axis (R19), or, where it would leave the LINEAR range, the hold request with cause OVERFLOW (R20). -/
def State.count (s : State) (a : AxisId) (d : Dir) : State :=
  match (s.axis a).config with
  | none => s
  | some g =>
    match g.kind.moved (s.axis a).position d with
    | none => s.hold a .overflow
    | some pos =>
      let x := (s.axis a).counted d pos
      (s.updAxis a fun _ => x).tellCount a ⟨d, pos, x.serial, s.ts⟩

/-- COUNT_EVENT (R19) from a sample that the decoder finds to be a count (R14 to R17). -/
def execCountEvent (a : AxisId) (chA chB : Bool) (s : State) : Host.Outcome State Fault Refusal :=
  .next (match (s.axis a).sample chA chB with
    | .count d => (s.takeSample a chA chB).count a d
    | _ => s)

/-- ILLEGAL_TRANSITION (R16). -/
def execIllegalTransition (a : AxisId) (chA chB : Bool) (s : State) : Host.Outcome State Fault Refusal :=
  .next (match (s.axis a).sample chA chB with
    | .illegal => (s.takeSample a chA chB).updAxis a fun x => { x with illegal := satAdd max32 x.illegal 1 }
    | _ => s)

/-- DECODER_REFERENCE_UPDATE (R13, R15, R17). -/
def execDecoderReferenceUpdate (a : AxisId) (chA chB : Bool) (s : State) : Host.Outcome State Fault Refusal :=
  .next (match (s.axis a).sample chA chB with
    | .reference => s.takeSample a chA chB
    | _ => s)

/-! ## The prescaler (R18) -/

/-- The prescale and direction of a counting TIMEBASE axis to which a tick has been offered (R18). -/
def Axis.prescale (x : Axis) : Option (Nat × Dir) :=
  match x.config with
  | some g =>
    match g.source with
    | .timebase p d => if x.counting = true ∧ x.tick = true then some (p, d) else none
    | _ => none
  | none => none

/-- The unit takes a tick at which its prescaler count reaches P (R18): one count event. -/
def State.prescalerExpires (s : State) (a : AxisId) (d : Dir) : State :=
  (s.updAxis a fun x => { x with prescaler := 0, tick := false }).count a d

/-- The unit takes a tick at which its prescaler count does not reach P (R18). -/
def State.prescalerAdvances (s : State) (a : AxisId) : State :=
  s.updAxis a fun x => { x with prescaler := x.prescaler + 1, tick := false }

/-- The unit takes the tick that has been offered to it, if one has (R18). -/
def State.prescaleTick (s : State) (a : AxisId) : State :=
  match (s.axis a).prescale with
  | some (p, d) => if p ≤ (s.axis a).prescaler + 1 then s.prescalerExpires a d else s.prescalerAdvances a
  | none => s

/-- PRESCALER_EXPIRY (R18): the tick at which the prescaler count reaches P. -/
def execPrescalerExpiry (a : AxisId) (s : State) : Host.Outcome State Fault Refusal :=
  .next (match (s.axis a).prescale with
    | some (p, d) =>
      if p ≤ (s.axis a).prescaler + 1 then s.prescalerExpires a d else s
    | none => s)

/-- PRESCALER_ADVANCE (R18): a tick at which the prescaler count does not reach P. -/
def execPrescalerAdvance (a : AxisId) (s : State) : Host.Outcome State Fault Refusal :=
  .next (match (s.axis a).prescale with
    | some (p, _) =>
      if p ≤ (s.axis a).prescaler + 1 then s else s.prescalerAdvances a
    | none => s)

/-! ## The index input (R30 to R32) -/

/-- A direction fits a qualifier (R30, R59). -/
def Qualifier.accepts : Qualifier → Dir → Bool
  | .fwd, .fwd => true
  | .rev, .rev => true
  | .either, _ => true
  | _, _ => false

/-- A rising edge on ENCZ is taken as an index event (R30). -/
def Axis.takesIndex (x : Axis) (g : AxisConfig) : Bool :=
  x.counting &&
    match x.lastDir with
    | some d => g.indexDir.accepts d
    | none => false

/-- The spacing error flag after the spacing check (R31). -/
def Axis.spacingAfter (x : Axis) (g : AxisConfig) : Bool :=
  if g.spacing ≠ 0 ∧ x.prevIndex = true then
    decide (g.tolerance < x.net.natAbs ∧ g.tolerance < ((x.net.natAbs : Int) - g.spacing).natAbs)
  else x.spacingError

/-- The preset of an index event (R32), with its notice. -/
def State.indexPreset (s : State) (a : AxisId) (g : AxisConfig) : State :=
  let old := (s.axis a).position
  match g.indexMode with
  | .none => s
  | .homeOnce =>
    if (s.axis a).homePending then
      (s.updAxis a fun x => { x with position := g.preset, homePending := false }).handNotice
        (.homeDone a old g.preset (s.axis a).serial s.ts)
    else s
  | .presetEvery =>
    let s' := s.updAxis a fun x => { x with position := g.preset }
    if old = g.preset then s' else s'.handNotice (.indexCorrected a old g.preset (s.axis a).serial s.ts)

/-- INDEX_EDGE (R30): the spacing check (R31), then the preset (R32), then the index history. -/
def execIndexEdge (a : AxisId) (s : State) : Host.Outcome State Fault Refusal :=
  .next (match (s.axis a).config with
    | some g =>
      if (s.axis a).takesIndex g then
        let s := s.updAxis a fun x => { x with spacingError := x.spacingAfter g }
        (s.indexPreset a g).updAxis a fun x => { x with prevIndex := true, net := 0 }
      else s
    | none => s)

/-! ## HOLD_IN and hold requests (R26, R27) -/

/-- HOLD_IN_ASSERT_AXIS (R27). -/
def execHoldInAssertAxis (a : AxisId) (s : State) : Host.Outcome State Fault Refusal :=
  .next ({ (s.updAxis a fun x => { x with holdIn := true }) with pins := { s.pins with holdIn := true } }.hold a .inhibit)

/-- HOLD_IN_DEASSERT_AXIS (R27). -/
def execHoldInDeassertAxis (a : AxisId) (s : State) : Host.Outcome State Fault Refusal :=
  .next { (s.updAxis a fun x => { x with holdIn := false }) with pins := { s.pins with holdIn := false } }

/-- HOLD_REQUEST (R26): the unit takes the oldest hold request sent to it. -/
def execHoldRequest (a : AxisId) (s : State) : Host.Outcome State Fault Refusal :=
  .next (match (s.axis a).holdReqs with
    | c :: rest => (s.updAxis a fun x => { x with holdReqs := rest }).hold a c
    | [] => s)

end Sys2Proof.Machine
end

