-- ==== Sys2Proof/Machine/Lines.lean ====
section
/-! DEFINITION. The events of an output line (06): actions, pulse ends, forcing and host writes. -/

namespace Sys2Proof.Machine

/-! ## Actions (R108 to R110) -/

/-- The pulse end that a PULSE forms (R110). -/
def pulseEnd (duration : Nat) (unit : PulseUnit) (f : FireAction) : PulseEnds :=
  match unit with
  | .counts => ⟨some (f.serial + duration), none⟩
  | .ticks => ⟨none, some (deadlineAt f.stamp duration)⟩

/-- The line becomes PULSING with these ends alone; a deadline set now waits for a tick yet to come (R5). -/
def Line.startPulse (l : Line) (ends : PulseEnds) : Line := { l with state := .pulsing ends, tick := false }

/-- The later of an end held and a new one; a new end where none is held (R109, EXTEND). -/
def laterEnd : Option Nat → Option Nat → Option Nat
  | some old, some new => some (max old new)
  | none, some new => some new
  | old, none => old

/-- A PULSE on a PULSING line under EXTEND (R109). An end timestamp set now waits for a tick yet to come (R5). -/
def Line.extendPulse (l : Line) (held new : PulseEnds) : Line :=
  let ends : PulseEnds := ⟨laterEnd held.serial new.serial, laterEnd held.tick new.tick⟩
  { l with state := .pulsing ends, tick := l.tick && decide (ends.tick = held.tick) }

/-- The retrigger setting of a line; a DISABLED line has none and takes no action. -/
def Line.retrigger (l : Line) : Retrigger :=
  match l.drive with
  | some d => d.retrigger
  | none => .ignore

/-- A line takes an action, in any state (R108, R109). A FORCED line drops it. -/
def Line.act (l : Line) (f : FireAction) : Line :=
  match l.state with
  | .undriven => l
  | .forced => l
  | .inactive =>
    match f.action with
    | .set => { l with state := .active }
    | .clear => l
    | .toggle => { l with state := .active }
    | .pulse d u => l.startPulse (pulseEnd d u f)
  | .active =>
    match f.action with
    | .set => l
    | .clear => { l with state := .inactive }
    | .toggle => { l with state := .inactive }
    | .pulse d u => l.startPulse (pulseEnd d u f)
  | .pulsing held =>
    match f.action with
    | .set => { l with state := .active, tick := false }
    | .clear => { l with state := .inactive, tick := false }
    | .toggle => { l with state := .inactive, tick := false }
    | .pulse d u =>
      match l.retrigger with
      | .restart => l.startPulse (pulseEnd d u f)
      | .extend => l.extendPulse held (pulseEnd d u f)
      | .ignore => { l with suppressed := satAdd max32 l.suppressed 1 }

/-! ## Pulse ends (R111 to R113) -/

/-- The ends of a pulse after one is removed: with none left the line is INACTIVE (R111, R112). -/
def Line.endPulse (l : Line) (ends : PulseEnds) : Line :=
  if ends.serial = none ∧ ends.tick = none then { l with state := .inactive, tick := false }
  else { l with state := .pulsing ends }

/-- A COMPARE line takes a count event of its axis (R111). -/
def Line.countEnd (l : Line) (serial : Nat) : Line :=
  match l.state with
  | .pulsing e =>
    match e.serial with
    | some k => if k ≤ serial then l.endPulse ⟨none, e.tick⟩ else l
    | none => l
  | _ => l

/-- The line takes a tick, offered since its end timestamp was set (R5), that reaches that end (R112). -/
def State.endTickPulse (s : State) (n : LineId) : State :=
  match (s.line n).state with
  | .pulsing e =>
    match e.tick with
    | some t =>
      if (s.line n).tick = true ∧ t ≤ s.ts then s.updLine n fun l => { l with tick := false }.endPulse ⟨e.serial, none⟩ else s
    | none => s
  | _ => s

/-- PULSE_END_TICK (R112). -/
def execPulseEndTick (n : LineId) (s : State) : Host.Outcome State Fault Refusal := .next (s.endTickPulse n)

/-- A STOP or an AXIS_CONFIG of the bound axis reaches the line (R113). -/
def Line.axisStop (l : Line) : Line :=
  match l.state with
  | .pulsing e => if e.serial.isSome then { l with state := .inactive, tick := false } else l
  | _ => l

/-! ## Forcing (R114) -/

/-- The line becomes FORCED, with its pulse ends removed (R114). -/
def Line.force (l : Line) : Line := { l with state := .forced, tick := false }

/-- Whether the line is in HOST mode. -/
def Line.isHost (l : Line) : Bool :=
  match l.config with
  | .host _ => true
  | _ => false

/-! ## What a line takes from its Axis Unit (R111, R113, R115) -/

/-- The line takes a message of its Axis Unit, the first that waits for it: a count event (R111), a STOP or an AXIS_CONFIG (R113), a
hold or a resumption (R115). -/
def Line.takeAxisMsg (l : Line) (m : LineMsg) : Line :=
  let l := { l with fromAxis := l.fromAxis.tail }
  match m with
  | .count k => l.countEnd k
  | .stop => l.axisStop
  | .held => { l with axisHeld := true }.force
  | .resumed => { l with axisHeld := false, state := .inactive, tick := false }

/-- The line takes the first messages of its Axis Unit, this many of them. -/
def Line.takeAxisMsgs (l : Line) : Nat → Line
  | 0 => l
  | k + 1 =>
    match l.fromAxis with
    | m :: _ => (l.takeAxisMsg m).takeAxisMsgs k
    | [] => l

/-- LINE_AXIS_STOP (R113). -/
def execLineAxisStop (n : LineId) (s : State) : Host.Outcome State Fault Refusal :=
  .next (match (s.line n).fromAxis with
    | .stop :: _ => s.updLine n fun l => l.takeAxisMsg .stop
    | _ => s)

/-- LINE_AXIS_HELD (R115). -/
def execLineAxisHeld (n : LineId) (s : State) : Host.Outcome State Fault Refusal :=
  .next (match (s.line n).fromAxis with
    | .held :: _ => s.updLine n fun l => l.takeAxisMsg .held
    | _ => s)

/-- LINE_AXIS_RESUMED (R115). -/
def execLineAxisResumed (n : LineId) (s : State) : Host.Outcome State Fault Refusal :=
  .next (match (s.line n).fromAxis with
    | .resumed :: _ => s.updLine n fun l => l.takeAxisMsg .resumed
    | _ => s)

/-! ## Fire actions and count events in order (R107, R111)

A line takes the count events of its axis and the fire actions of the axis's list in the order of their count serials, and those of one
serial in either order (R111, DEDUCED, log 45). -/

/-- How many messages stand up to and with the last one of a kind: 0 when there is none. -/
def throughLast {α : Type} (kind : α → Bool) : List α → Nat
  | [] => 0
  | m :: rest =>
    match throughLast kind rest with
    | 0 => if kind m then 1 else 0
    | k + 1 => k + 2

/-- How many messages the Axis Unit sent before the count event of this serial, where that event still waits for the line. -/
def Line.sentBefore (l : Line) (serial : Nat) : Nat := throughLast (fun m => decide (m = .count serial)) l.fromAxis - 1

/-- The line takes a fire action (R107), after what its Axis Unit sent it before the count event of the fire (log 45). -/
def Line.takeAction (l : Line) (f : FireAction) : Line := (l.takeAxisMsgs (l.sentBefore f.serial)).act f

/-- The line takes every fire action sent to it, in the order sent. -/
def Line.actAll (l : Line) : Line := l.fromList.foldl Line.takeAction { l with fromList := [] }

/-- LINE_FIRE_ACTION (R107, R108): the line takes the oldest fire action sent to it. -/
def execLineFireAction (n : LineId) (s : State) : Host.Outcome State Fault Refusal :=
  .next (match (s.line n).fromList with
    | f :: rest => s.updLine n fun l => { l with fromList := rest }.takeAction f
    | [] => s)

/-- What belongs to a count event of this serial comes before the count event `k` that the line is to take: the serial is lower, and
its count event is not among those still to come. -/
def Line.precedes (l : Line) (serial k : Nat) : Bool := decide (serial < k) && !l.fromAxis.contains (.count serial)

/-- The line takes the fire actions that come before a count event (log 45). -/
def Line.actBefore (l : Line) (k : Nat) : Line :=
  (l.fromList.takeWhile fun f => l.precedes f.serial k).foldl Line.act
    { l with fromList := l.fromList.dropWhile fun f => l.precedes f.serial k }

/-- The line takes the count event that waits first, after the fire actions that come before it (R111, log 45). -/
def Line.takeCount (l : Line) : Line :=
  match l.fromAxis with
  | .count k :: _ => (l.actBefore k).takeAxisMsg (.count k)
  | _ => l

/-! ## The hold input and the notices of the Monitor Table (R116, R117) -/

/-- HOLD_IN_ASSERT_LINE (R116): a HOST line becomes FORCED. -/
def execHoldInAssertLine (n : LineId) (s : State) : Host.Outcome State Fault Refusal :=
  .next { (s.updLine n fun l =>
      let l := { l with holdIn := true }
      if l.isHost then l.force else l) with pins := { s.pins with holdIn := true } }

/-- A HOST line that is FORCED becomes INACTIVE when no source forces it any more (R114, R116, R117). -/
def Line.unforce (l : Line) : Line :=
  if l.isHost = true ∧ l.state = .forced ∧ l.holdIn = false ∧ l.tripCount = 0 then { l with state := .inactive } else l

/-- HOLD_IN_DEASSERT_LINE (R116). -/
def execHoldInDeassertLine (n : LineId) (s : State) : Host.Outcome State Fault Refusal :=
  .next { (s.updLine n fun l => { l with holdIn := false }.unforce) with pins := { s.pins with holdIn := false } }

/-- The line takes a trip notice (R117, R134): a HOST line becomes FORCED, a COMPARE line passes a TRIP hold request to the axis it
is bound to. -/
def State.takeTrip (s : State) (n : LineId) : State :=
  let s' := s.updLine n fun l =>
    let l := { l with tripCount := l.tripCount + 1 }
    if l.isHost then l.force else l
  match (s.line n).config with
  | .compare a _ => s'.sendHold a .trip
  | _ => s'

/-- The line takes a release notice (R117, R137). -/
def State.takeRelease (s : State) (n : LineId) : State :=
  s.updLine n fun l => { l with tripCount := l.tripCount - 1 }.unforce

/-- The line takes the first of the notices that the Monitor Table sent it. -/
def State.takeNotice (s : State) (n : LineId) (m : TripMsg) (rest : List TripMsg) : State :=
  let s := s.updLine n fun l => { l with fromMonitor := rest }
  match m with
  | .trip => s.takeTrip n
  | .release => s.takeRelease n

/-- LINE_TRIP_NOTICE (R117, R134). -/
def execLineTripNotice (n : LineId) (s : State) : Host.Outcome State Fault Refusal :=
  .next (match (s.line n).fromMonitor with
    | .trip :: rest => s.takeNotice n .trip rest
    | _ => s)

/-- LINE_RELEASE_NOTICE (R117, R137). -/
def execLineReleaseNotice (n : LineId) (s : State) : Host.Outcome State Fault Refusal :=
  .next (match (s.line n).fromMonitor with
    | .release :: rest => s.takeNotice n .release rest
    | _ => s)

/-- The line takes the first notices that the Monitor Table has sent it, this many of them. -/
def State.takeNotices (s : State) (n : LineId) : Nat → State
  | 0 => s
  | k + 1 =>
    match (s.line n).fromMonitor with
    | m :: rest => (s.takeNotice n m rest).takeNotices n k
    | [] => s

/-- How many notices stand up to and with the last release: 0 when there is none. -/
def throughRelease (l : List TripMsg) : Nat := throughLast (fun m => decide (m = .release)) l

/-! ## Host writes (R118) -/

/-- LINE_HOST_WRITE (R118): the write that the pair's record processor has delivered reaches the line, whose answer becomes the
ack (R178). -/
def execLineHostWrite (p : PairId) (s : State) : Host.Outcome State Fault Refusal :=
  .next (match (s.proc p).phase with
    | some (.writing n action) =>
      if (s.line n).isHost = false then s.handAck p .lineMode 0 s.ts
      else if (s.line n).state = .forced then s.handAck p .lineTripped 0 s.ts
      else (s.updLine n fun l => l.act ⟨action, 0, s.ts⟩).handAck p .ok 0 s.ts
    | _ => s)

end Sys2Proof.Machine
end

