-- ==== Sys2Proof/Machine/CompareList.lean ====
section
/-! DEFINITION. The entry pool's allocation (R41) and the events of a compare list (04): count events and fires, the freeze,
the end of a pulse in counts at a line (R111), insertions, activations and removals. -/

namespace Sys2Proof.Machine

/-! ## The list (R55, R56) -/

/-- The list's order (R55): ascending position, and ascending arm order at one position. -/
def Armed.before (x y : Armed) : Bool := decide (x.pos < y.pos ∨ (x.pos = y.pos ∧ x.order < y.order))

/-- Place an entry on a list in its order (R55). -/
def insertArmed (x : Armed) : List Armed → List Armed
  | [] => [x]
  | y :: ys => if x.before y then x :: y :: ys else y :: insertArmed x ys

/-- The number of armed entries at a position (R56). -/
def CList.countAt (l : CList) (pos : Int) : Nat := l.entries.countP fun x => x.pos == pos

/-- A placement at this position would make a ninth entry there (R56). -/
def CList.crowded (l : CList) (pos : Int) : Bool := decide (Config.crowdLimit ≤ l.countAt pos)

/-- Arm an entry at a position: with the arm order it has, or with the list's next one (R58, R64). -/
def CList.place (l : CList) (e : Entry) (pos : Int) (order : Option Nat) : CList :=
  match order with
  | some o => { l with entries := insertArmed ⟨e, pos, o⟩ l.entries }
  | none => { l with entries := insertArmed ⟨e, pos, l.nextArm⟩ l.entries, nextArm := satAdd max64 l.nextArm 1 }

/-- An armed entry leaves the list. -/
def CList.remove (l : CList) (x : Armed) : CList := { l with entries := l.entries.erase x }

/-! ## Retirement at a list (R45, R107) -/

/-- A compare list retires an entry (R45). The line takes what the list hands it in order (R107), so it takes the fire actions that it
has been sent before it takes the release (log 33). -/
def State.retire (s : State) (e : Entry) : State := (s.updLine e.line Line.actAll).release e

/-- A compare list retires several entries, one after another. -/
def State.retireAll (s : State) (es : List Entry) : State := es.foldl State.retire s

/-! ## Fires (R60 to R67) -/

/-- Where and when a fire happens: the direction and position it is reported with, and its serial and stamp. -/
structure FirePoint where
  dir : Dir
  pos : Int
  serial : Nat
  stamp : Nat
  deriving DecidableEq, Repr

/-- A RETIRE report is handed when the entry's report flag is on (R67). -/
def State.reportRetire (s : State) (e : Entry) (reason : Reason) (pos : Int) (serial stamp : Nat) : State :=
  if e.report then s.handReport e.owner (.retire ⟨e.axis, e.tag, pos, e.occurrence, reason, serial, stamp⟩) else s

/-- The target of a repeat advance (R64): none when it leaves the LINEAR range. -/
def AxisKind.target (k : AxisKind) (pos pitch : Int) : Option Int :=
  match k with
  | .linear => if linearRange (pos + pitch) then some (pos + pitch) else none
  | .rotary m => some ((pos + pitch) % m)

/-- The repeat advance of an entry that has fired with repeats left (R64 to R66). -/
def State.advance (s : State) (a : AxisId) (k : AxisKind) (e : Entry) (order : Option Nat) (f : FirePoint) : State :=
  match k.target f.pos (e.pitch.getD 0) with
  | none => (s.reportRetire e .endRange f.pos f.serial f.stamp).retire e
  | some t =>
    if (s.clist a).crowded t then (s.reportRetire e .endCrowded t f.serial f.stamp).retire e
    else s.updList a fun l => l.place { e with repeatLeft := e.repeatLeft - 1 } t order

/-- A fire of an entry (R60): the action, the FIRE report when `reports` and the report flag is on (R61), the occurrence, and then
retirement or the repeat advance. The entry stands on no list here. -/
def State.fire (s : State) (a : AxisId) (k : AxisKind) (e : Entry) (order : Option Nat) (f : FirePoint) (reports : Bool) :
    State :=
  let s := s.sendAction e.line ⟨e.action, f.serial, f.stamp⟩
  let s :=
    if reports && e.report then
      s.handReport e.owner
        (.fire ⟨e.axis, e.tag, f.pos, e.occurrence, f.dir, decide (e.repeatLeft = 0), f.serial, f.stamp⟩)
    else s
  let e := { e with occurrence := satAdd 65535 e.occurrence 1 }
  if e.repeatLeft = 0 then s.retire e else s.advance a k e order f

/-- The entries that a count event fires (R59): those at the position it arrives at whose qualifier accepts its direction, in
ascending arm order. -/
def CList.firing (l : CList) (k : Count) : List Armed :=
  l.entries.filter fun x => x.pos == k.pos && x.entry.qual.accepts k.dir

/-- An armed entry fires at a crossing (R60, R61). -/
def State.fireArmed (a : AxisId) (kind : AxisKind) (k : Count) (s : State) (x : Armed) : State :=
  (s.updList a fun l => l.remove x).fire a kind x.entry (some x.order) ⟨k.dir, k.pos, k.serial, k.stamp⟩ true

/-- A compare list takes a count event (R59, R62). -/
def State.crossing (s : State) (a : AxisId) (k : Count) : State :=
  if (s.clist a).frozen then s
  else
    match (s.axis a).config with
    | some g => ((s.clist a).firing k).foldl (State.fireArmed a g.kind k) s
    | none => s

/-- The list's inbox, with its first message taken. -/
def State.popInbox (s : State) (a : AxisId) : State := s.updList a fun l => { l with inbox := l.inbox.tail }

/-- The list takes a message of its Axis Unit, the first in its inbox (R57): a count event (R59), or the start or the end of a freeze
(R75). -/
def State.takeListMsg (s : State) (a : AxisId) (m : ListMsg) : State :=
  match m with
  | .count k => (s.popInbox a).crossing a k
  | .freeze => (s.popInbox a).updList a fun l => { l with frozen := true }
  | .unfreeze => (s.popInbox a).updList a fun l => { l with frozen := false }

/-- The list takes the first messages of its inbox, this many of them. -/
def State.takeListMsgs (s : State) (a : AxisId) : Nat → State
  | 0 => s
  | k + 1 =>
    match (s.clist a).inbox with
    | m :: _ => (s.takeListMsg a m).takeListMsgs a k
    | [] => s

/-- Whether a message is a count event. -/
def ListMsg.isCount : ListMsg → Bool
  | .count _ => true
  | .freeze => false
  | .unfreeze => false

/-- The list takes every count event that waits for it, in the order of its inbox (R57), each with what was sent before it. It does so
before a tick, since a fire carries the stamp that the Axis Unit gave its count event (R3, R19, R110, DEDUCED, log 40), and before an
insertion, since the count events that the insertion reads at the Axis Unit have been judged (R63, R70, DEDUCED, log 43). -/
def State.takeCounts (s : State) (a : AxisId) : State := s.takeListMsgs a (throughLast ListMsg.isCount (s.clist a).inbox)

/-- LIST_COUNT_EVENT (R59). -/
def execListCountEvent (a : AxisId) (s : State) : Host.Outcome State Fault Refusal :=
  .next (match (s.clist a).inbox with
    | .count k :: _ => s.takeListMsg a (.count k)
    | _ => s)

/-- LIST_FREEZE (R75). -/
def execListFreeze (a : AxisId) (s : State) : Host.Outcome State Fault Refusal :=
  .next (match (s.clist a).inbox with
    | .freeze :: _ => s.takeListMsg a .freeze
    | _ => s)

/-- LIST_UNFREEZE (R75). -/
def execListUnfreeze (a : AxisId) (s : State) : Host.Outcome State Fault Refusal :=
  .next (match (s.clist a).inbox with
    | .unfreeze :: _ => s.takeListMsg a .unfreeze
    | _ => s)

/-! ## The end of a pulse in counts (R111) -/

/-- Whether a message is a count event that comes before the count event `k` that a line is to take. -/
def ListMsg.precedes (l : Line) (k : Nat) : ListMsg → Bool
  | .count c => l.precedes c.serial k
  | .freeze => false
  | .unfreeze => false

/-- Before a line takes a count event of its axis, the list of the axis takes the count events before it, since one of them may start a
pulse that this count event ends (R111, DEDUCED, log 45). -/
def State.listBefore (s : State) (n : LineId) : State :=
  match (s.line n).config, (s.line n).fromAxis with
  | .compare a _, .count k :: _ => s.takeListMsgs a (throughLast (ListMsg.precedes (s.line n) k) (s.clist a).inbox)
  | _, _ => s

/-- PULSE_END_COUNT (R111): the line takes the count event that its Axis Unit handed to it first. -/
def execPulseEndCount (n : LineId) (s : State) : Host.Outcome State Fault Refusal :=
  .next (match (s.line n).fromAxis with
    | .count _ :: _ => (s.listBefore n).updLine n Line.takeCount
    | _ => s)

/-! ## Allocation (R41) -/

/-- The line test of R41 and of step 5 (R174, R176): COMPARE mode, bound to the entry's axis. -/
def lineTest (l : Line) (a : AxisId) : Option Status :=
  match l.config with
  | .compare b _ => if b = a then none else some .lineAxis
  | _ => some .lineMode

/-- The tests of an allocation, in order (R41). -/
def State.allocationTest (s : State) (p : PairId) (e : Entry) : Option Status :=
  if s.pool.quota[p] ≤ s.pool.live[p] then some .quotaFull
  else if s.pool.free = 0 then some .poolEmpty
  else lineTest (s.line e.line) e.axis

/-- A granted allocation (R41): one entry leaves the free set, and the pair's live count and the line's reference count rise. -/
def State.allocate (s : State) (p : PairId) (e : Entry) : State :=
  { s with pool := { s.pool with free := s.pool.free - 1, live := s.pool.live.set p (s.pool.live[p] + 1) } }.updLine e.line
    fun l => { l with refCount := l.refCount + 1 }

/-- ALLOCATION (R41) for the ARM or ARM_DEFERRED in progress at the pair. -/
def execAllocation (p : PairId) (s : State) : Host.Outcome State Fault Refusal :=
  .next (match (s.proc p).phase with
    | some (.allocateArm e pos) =>
      match s.allocationTest p e with
      | some st => s.handAck p st 0 s.ts
      | none => (s.allocate p e).setPhase p (.inserting e pos)
    | some (.allocateDeferred w c close) =>
      match s.allocationTest p w.entry with
      | some st => s.handAck p st 0 s.ts
      | none => (s.allocate p w.entry).setPhase p (.appending w c close)
    | _ => s)

/-! ## Insertion and the late test (R68 to R74) -/

/-- The behind distance of a position (R70). -/
def AxisKind.behind (k : AxisKind) (d : Dir) (axisPos pos : Int) : Int :=
  let b := match d with
    | .fwd => axisPos - pos
    | .rev => pos - axisPos
  match k with
  | .linear => b
  | .rotary m => b % m

/-- The late test (R69, R70): none when it is not made or the entry is not late, and otherwise the last direction. -/
def State.lateTest (s : State) (a : AxisId) (g : AxisConfig) (e : Entry) (pos : Int) : Option Dir :=
  if (s.clist a).frozen then none
  else
    match (s.axis a).lastDir with
    | some d =>
      let b := g.kind.behind d (s.axis a).position pos
      if e.qual.accepts d = true ∧ 0 ≤ b ∧ b ≤ g.lateWindow then some d else none
    | none => none

/-- A pitch of magnitude M or more on a ROTARY axis of modulus M (R68, test 1). -/
def pitchTooWide (k : AxisKind) (e : Entry) : Bool :=
  match k, e.pitch with
  | .rotary m, some pitch => decide (m ≤ pitch.natAbs)
  | _, _ => false

/-- A position outside 0..M-1 on a ROTARY axis of modulus M (R68, test 1). -/
def posOutside (k : AxisKind) (pos : Int) : Bool :=
  match k with
  | .rotary m => !decide (0 ≤ pos ∧ pos < m)
  | .linear => false

/-- What an insertion does with an entry at a position that has passed the modulus test (R68, tests 2 to 4). -/
inductive Placement where
  | arm
  | fire (d : Dir)
  | refuse
  | crowd
  deriving DecidableEq, Repr

/-- The late test, the late policy and the crowd test (R68 to R73). -/
def State.placement (s : State) (a : AxisId) (g : AxisConfig) (e : Entry) (pos : Int) : Placement :=
  match s.lateTest a g e pos, e.late with
  | some d, .fire => .fire d
  | some _, .refuse => .refuse
  | _, _ => if (s.clist a).crowded pos then .crowd else .arm

/-- The fire of an entry at an insertion (R72): the serial is the axis count serial that the list reads with it (R74). -/
def State.insertionPoint (s : State) (a : AxisId) (d : Dir) (pos : Int) : FirePoint := ⟨d, pos, (s.axis a).serial, s.ts⟩

/-- The compare list takes the insertion of an ARM's entry (R68, R175); its answer becomes the ack. -/
def State.insertArm (s : State) (p : PairId) (e : Entry) (pos : Int) (g : AxisConfig) : State :=
  let a := e.axis
  if posOutside g.kind pos then (s.retire e).handAck p .badField 5 s.ts
  else if pitchTooWide g.kind e then (s.retire e).handAck p .badField 6 s.ts
  else
    match s.placement a g e pos with
    | .refuse => (s.retire e).handAck p .passed 0 s.ts
    | .crowd => (s.retire e).handAck p .crowded 0 s.ts
    | .fire d => (s.fire a g.kind e none (s.insertionPoint a d pos) false).handAck p .lateFired e.occurrence s.ts
    | .arm => (s.updList a fun l => l.place e pos none).handAck p .ok 0 s.ts

/-- INSERTION (R68) of the PENDING entry of the pair's ARM. The list has judged the count events that it reads at the axis (R70, log
43). -/
def execInsertion (p : PairId) (s : State) : Host.Outcome State Fault Refusal :=
  .next (match (s.proc p).phase with
    | some (.inserting e pos) =>
      match (s.axis e.axis).config with
      | some g => (s.takeCounts e.axis).insertArm p e pos g
      | none => s
    | _ => s)

/-! ## Activation (R79 to R81) -/

/-- The position that an activation forms (R79): none when it leaves the LINEAR range. -/
def AxisKind.formed (k : AxisKind) (origin offset : Int) : Option Int :=
  match k with
  | .linear => if linearRange (origin + offset) then some (origin + offset) else none
  | .rotary m => some ((origin + offset) % m)

/-- The `which`-th activation of a list gives up its first entry; an activation that then holds nothing has ended (R79). -/
def CList.takeActivated (l : CList) (which : Nat) : CList :=
  match l.activations[which]? with
  | some k =>
    match k.entries with
    | _ :: [] => { l with activations := l.activations.eraseIdx which }
    | _ :: rest => { l with activations := l.activations.set which { k with entries := rest } }
    | [] => l
  | none => l

/-- The DELETE_PAIR that discards the pair adds one to the number of entries it has retired (R151). -/
def Proc.addDiscarded (x : Proc) (p : PairId) : Proc :=
  match x with
  | .busy k c (.discarding q r z) => if q = p then .busy k c (.discarding q { r with sum := r.sum + 1 } z) else x
  | _ => x

/-- The list takes the insertion of an activation's entry (R68, R79, R80): its outcomes are reported, not acked. -/
def State.insertActivated (s : State) (a : AxisId) (w : Waiting) (origin : Int) (g : AxisConfig) : State :=
  let e := w.entry
  let serial := (s.axis a).serial
  if pitchTooWide g.kind e then (s.reportRetire e .actRange origin serial s.ts).retire e
  else
    match g.kind.formed origin w.offset with
    | none => (s.reportRetire e .actRange origin serial s.ts).retire e
    | some pos =>
      match s.placement a g e pos with
      | .refuse => (s.reportRetire e .actPassed pos serial s.ts).retire e
      | .crowd => (s.reportRetire e .actCrowded pos serial s.ts).retire e
      | .fire d => s.fire a g.kind e none (s.insertionPoint a d pos) true
      | .arm => s.updList a fun l => l.place e pos none

/-- ACTIVATION_INSERTION (R79): the next entry of the `which`-th activation on the list. An entry whose pair is in the
discarding set is retired silently, before any test, and reported to the admin record processor (R55, R151). The list has judged the
count events that it reads at the axis (R70, log 43). -/
def execActivationInsertion (a : AxisId) (which : Nat) (s : State) : Host.Outcome State Fault Refusal :=
  .next (match (s.clist a).activations[which]? with
    | some k =>
      match k.entries, (s.axis a).config with
      | w :: _, some g =>
        let s := s.takeCounts a
        let s' := s.updList a fun l => l.takeActivated which
        if (s.clist a).discarding.contains w.entry.owner then
          (s'.retire w.entry).updProcs fun p x => if p = 0 then x.addDiscarded w.entry.owner else x
        else s'.insertActivated a w k.origin g
      | _, _ => s
    | none => s)

/-! ## Removals (R76, R77, R151) -/

/-- An entry fits a scope (R51). -/
def CancelScope.fits (x : CancelScope) (e : Entry) : Bool :=
  match x with
  | .tag t => e.tag == t
  | .group g => e.group == g
  | .all => true

/-- An entry that a CANCEL of a pair reaches by its owner and scope (R51). -/
def cancelReaches (p : PairId) (scope : CancelScope) (e : Entry) : Bool := e.owner == p && scope.fits e

/-- The list removes its armed entries that a removal reaches, and retires each silently (R76, R77). -/
def State.removeArmed (s : State) (a : AxisId) (reaches : Entry → Bool) : State :=
  let gone := ((s.clist a).entries.filter fun x => reaches x.entry).map fun x => x.entry
  (s.updList a fun l => { l with entries := l.entries.filter fun x => !reaches x.entry }).retireAll gone

/-- The number of a list's armed entries that a removal reaches. -/
def State.armedReached (s : State) (a : AxisId) (reaches : Entry → Bool) : Nat :=
  ((s.clist a).entries.filter fun x => reaches x.entry).length

/-- A block has taken its removal request, and its answer waits for the processor (R177). -/
def Removing.answered (r : Removing) (b : Block) (count stamp : Nat) : Removing :=
  { r with todo := r.todo.erase b, answers := r.answers ++ [(count, stamp)] }

/-- A removal event is answered to the record processor that sent it. -/
def Proc.answered (x : Proc) (b : Block) (count stamp : Nat) : Proc :=
  match x with
  | .busy k c (.cancelling scope restrict r) => .busy k c (.cancelling scope restrict (r.answered b count stamp))
  | .busy k c (.cancellingAxis a r) => .busy k c (.cancellingAxis a (r.answered b count stamp))
  | .busy k c (.discarding q r z) => .busy k c (.discarding q (r.answered b count stamp) z)
  | _ => x

/-- The answer of a block's removal event reaches the processor of the pair. -/
def State.answer (s : State) (p : PairId) (b : Block) (count : Nat) : State :=
  s.updProcs fun q x => if q = p then x.answered b count s.ts else x

/-- A block that a removal request excludes answers 0 (R177, R185). It takes no removal event, so its answer carries the stamp 0,
which no later stamp is below. -/
def State.answerExcluded (s : State) (p : PairId) (b : Block) : State :=
  s.updProcs fun q x => if q = p then x.answered b 0 0 else x

/-- LIST_CANCEL (R76): the list takes the CANCEL of the pair. -/
def execListCancel (a : AxisId) (p : PairId) (s : State) : Host.Outcome State Fault Refusal :=
  .next (match (s.proc p).phase with
    | some (.cancelling scope _ r) =>
      if r.todo.contains (.list a) then
        (s.removeArmed a (cancelReaches p scope)).answer p (.list a) (s.armedReached a (cancelReaches p scope))
      else s
    | _ => s)

/-- LIST_CANCEL_AXIS (R77): the list removes every entry it holds. -/
def execListCancelAxis (a : AxisId) (s : State) : Host.Outcome State Fault Refusal :=
  .next (match (s.proc 0).phase with
    | some (.cancellingAxis _ r) =>
      if r.todo.contains (.list a) then
        (s.removeArmed a fun _ => true).answer 0 (.list a) (s.armedReached a fun _ => true)
      else s
    | _ => s)

/-- LIST_DISCARD_PAIR (R77, R151): the list removes the deleted pair's entries and places the pair in its discarding set. -/
def execListDiscardPair (a : AxisId) (s : State) : Host.Outcome State Fault Refusal :=
  .next (match (s.proc 0).phase with
    | some (.discarding p r _) =>
      if r.todo.contains (.list a) then
        (((s.removeArmed a fun e => e.owner == p).updList a fun l =>
          { l with discarding := if l.discarding.contains p then l.discarding else p :: l.discarding }).answer 0 (.list a)
          (s.armedReached a fun e => e.owner == p))
      else s
    | _ => s)

end Sys2Proof.Machine
end

