-- ==== Sys2Proof/Machine/Capture.lean ====
section
/-! DEFINITION. The events of a capture channel (05): edges, the lockout, appends and removals. -/

namespace Sys2Proof.Machine

/-! ## Edges and their qualification (R87 to R93) -/

/-- The window test (R87). -/
def ChanConfig.inWindow (g : ChanConfig) (rotary : Bool) (p : Int) : Bool :=
  match g.window with
  | none => true
  | some (lo, hi) =>
    if lo ≤ hi then decide (lo ≤ p ∧ p ≤ hi)
    else rotary && decide (lo ≤ p ∨ p ≤ hi)

/-- Whether an axis is ROTARY. -/
def Axis.isRotary (x : Axis) : Bool :=
  match x.config with
  | some g =>
    match g.kind with
    | .rotary _ => true
    | .linear => false
  | none => false

/-- A change to this level is an edge of a channel with this edge field (R88). -/
def EdgeKind.takes : EdgeKind → Bool → Bool
  | .rising, level => level
  | .falling, level => !level
  | .both, _ => true

/-- The channel takes a change of its input to this level as a capture edge (R88), and its configuration. -/
def State.captureOf (s : State) (c : ChanId) (level : Bool) : Option ChanConfig :=
  match (s.chan c).config with
  | some g =>
    if (level != (s.chan c).ref) = true ∧ g.edge.takes level = true ∧ (s.axis g.axis).counting = true then some g else none
  | none => none

/-- The channel, once it has rejected an edge (R89). -/
def Channel.reject (x : Channel) : Channel := { x with rejected := satAdd max32 x.rejected 1 }

/-- The channel, once it has latched an accepted edge (R90). -/
def Channel.latch (x : Channel) (g : ChanConfig) (k : Capture) : Channel :=
  { x with
    last := some k
    state := if g.lockout = 0 then .accepting else .lockout (k.serial + g.lockout) }

/-- The channel is in LOCKOUT. -/
def Channel.inLockout (x : Channel) : Bool :=
  match x.state with
  | .lockout _ => true
  | _ => false

/-- A CAPTURE notice is handed when the channel's report flag is on (R93). -/
def State.reportCapture (s : State) (c : ChanId) (g : ChanConfig) (k : Capture) (activated : Nat) (held unclaimed : Bool) :
    State :=
  if g.report then s.handNotice (.capture c k.pos activated held unclaimed k.serial k.stamp) else s

/-- What follows the latch, by the axis state read with the edge (R92). -/
def State.afterLatch (s : State) (c : ChanId) (g : ChanConfig) (k : Capture) : State :=
  if (s.axis g.axis).isHeld then s.reportCapture c g k 0 true false
  else
    match (s.chan c).closed with
    | b :: rest =>
      ((s.updChan c fun x => { x with closed := rest }).updList g.axis fun l =>
        { l with activations := l.activations ++ [⟨k.pos, k.stamp, b.entries⟩] }).reportCapture c g k b.entries.length false false
    | [] =>
      (s.updChan c fun x => { x with unclaimed := satAdd max32 x.unclaimed 1 }).reportCapture c g k 0 false true

/-- A capture edge at a channel (R89), read with its bound axis. -/
def State.captureEdge (s : State) (c : ChanId) (g : ChanConfig) : State :=
  let x := s.axis g.axis
  if (s.chan c).inLockout = true ∨ g.inWindow x.isRotary x.position = false then s.updChan c Channel.reject
  else
    let k : Capture := ⟨x.position, x.serial, s.ts⟩
    (s.updChan c fun y => y.latch g k).afterLatch c g k

/-- The channel's input goes to a level, which becomes its reference (R88). -/
def State.takeLevel (s : State) (c : ChanId) (input : InputId) (level : Bool) : State :=
  { (s.updChan c fun x => { x with ref := level }) with pins := { s.pins with cin := s.pins.cin.set input level } }

/-- CAPTURE_EDGE (R89). The channel takes nothing that still waits in its inbox, messages of an old axis configuration among them
(DESIGN CHOICE, log 46). -/
def execCaptureEdge (c : ChanId) (level : Bool) (s : State) : Host.Outcome State Fault Refusal :=
  .next (match s.captureOf c level with
    | some g => (s.takeLevel c g.input level).captureEdge c g
    | none => s)

/-- INPUT_REFERENCE_UPDATE (R88): every channel on the input that is not OFF, and for which the change is no capture edge, takes the
level as its reference. -/
def execInputReferenceUpdate (input : InputId) (level : Bool) (s : State) : Host.Outcome State Fault Refusal :=
  .next { (s.updChans fun c x =>
      match x.config with
      | some g => if g.input = input ∧ s.captureOf c level = none then { x with ref := level } else x
      | none => x) with pins := { s.pins with cin := s.pins.cin.set input level } }

/-! ## The lockout (R91, R12) -/

/-- The channel takes a count event of its axis (R91). -/
def Channel.countEvent (x : Channel) (serial : Nat) : Channel :=
  match x.state with
  | .lockout e => if e ≤ serial then { x with state := .accepting } else x
  | _ => x

/-- LOCKOUT_END (R91): the channel takes the count event its axis handed to it first. One that was handed over before an AXIS_CONFIG
and is taken after an edge on the new configuration is compared with the lockout end of that edge (DESIGN CHOICE, log 46). -/
def execLockoutEnd (c : ChanId) (s : State) : Host.Outcome State Fault Refusal :=
  .next (match (s.chan c).inbox with
    | .count k :: rest => s.updChan c fun x => { x with inbox := rest }.countEvent k
    | _ => s)

/-- An AXIS_CONFIG of the bound axis returns a channel in LOCKOUT to ACCEPTING (R12). -/
def Channel.axisConfigured (x : Channel) : Channel := if x.inLockout then { x with state := .accepting } else x

/-- CHANNEL_AXIS_CONFIG (R12, R86). It ends a lockout that an edge started before it is taken as well (DESIGN CHOICE, log 46). -/
def execChannelAxisConfig (c : ChanId) (s : State) : Host.Outcome State Fault Refusal :=
  .next (match (s.chan c).inbox with
    | .axisConfig :: rest => s.updChan c fun x => { x with inbox := rest }.axisConfigured
    | _ => s)

/-! ## Appends (R95, R96) -/

/-- The open batch moves to the tail of the closed queue (R96). -/
def Channel.close (x : Channel) : Channel := { x with openBatch := none, closed := x.closed ++ x.openBatch.toList }

/-- The open batch with an entry appended, created for the pair if there is none (R95). -/
def Channel.appended (x : Channel) (p : PairId) (w : Waiting) : Channel :=
  match x.openBatch with
  | some b => { x with openBatch := some { b with entries := b.entries ++ [w] } }
  | none => { x with openBatch := some ⟨p, [w]⟩ }

/-- The tests of an append, in order (R95): none when all pass. -/
def Channel.appendTest (x : Channel) (p : PairId) (a : AxisId) (close : Bool) : Option Status :=
  if x.boundTo a = false then some .lineAxis
  else
    match x.openBatch with
    | some b =>
      if b.owner ≠ p then some .channelOpenElsewhere
      else if close = true ∧ Config.queueLimit ≤ x.closed.length then some .queueFull
      else if Config.batchLimit ≤ b.entries.length then some .batchFull
      else none
    | none => if close = true ∧ Config.queueLimit ≤ x.closed.length then some .queueFull else none

/-- The channel after a refused append: BATCH_FULL with the CLOSE flag on closes the full batch (R96). -/
def Channel.refused (x : Channel) (st : Status) (close : Bool) : Channel :=
  if st = .batchFull ∧ close = true then x.close else x

/-- The channel after an accepted append (R95, R96). -/
def Channel.accepted (x : Channel) (p : PairId) (w : Waiting) (close : Bool) : Channel :=
  if close then (x.appended p w).close else x.appended p w

/-- APPEND (R95) of the PENDING entry of the pair's ARM_DEFERRED; the channel's answer becomes the ack (R176). -/
def execAppend (p : PairId) (s : State) : Host.Outcome State Fault Refusal :=
  .next (match (s.proc p).phase with
    | some (.appending w c close) =>
      match (s.chan c).appendTest p w.entry.axis close with
      | some st => ((s.updChan c fun x => x.refused st close).release w.entry).handAck p st 0 s.ts
      | none => (s.updChan c fun x => x.accepted p w close).handAck p .ok 0 s.ts
    | _ => s)

/-! ## Removals (R98, R99) -/

/-- The batch without the entries that a removal reaches. -/
def Batch.without (b : Batch) (reaches : Entry → Bool) : Batch :=
  { b with entries := b.entries.filter fun w => !reaches w.entry }

/-- The channel after a CANCEL (R98): an open batch stays, empty or not, and a closed batch left with no entries leaves. -/
def Channel.without (x : Channel) (reaches : Entry → Bool) : Channel :=
  { x with
    openBatch := x.openBatch.map fun b => b.without reaches
    closed := (x.closed.map fun b => b.without reaches).filter fun b => !b.entries.isEmpty }

/-- The WAITING entries of a channel that a removal reaches. -/
def Channel.reached (x : Channel) (reaches : Entry → Bool) : List Entry := x.waiting.filter reaches

/-- A channel takes a removal request of the pair's record (R98, R99): it changes by `f`, the entries reached are retired silently,
and their number is the answer. -/
def State.removeWaiting (s : State) (p : PairId) (c : ChanId) (reaches : Entry → Bool) (f : Channel → Channel) : State :=
  (((s.updChan c f).releaseAll ((s.chan c).reached reaches)).answer p (.channel c) ((s.chan c).reached reaches).length)

/-- A channel takes part in a CANCEL with this restriction (R98): one bound to another axis does not. -/
def Channel.inRestriction (x : Channel) (restrict : Option AxisId) : Bool :=
  match restrict with
  | some a => x.boundTo a
  | none => true

/-- CHANNEL_CANCEL (R98): the channel takes the CANCEL of the pair; one that the restriction excludes answers 0 (R177). -/
def execChannelCancel (c : ChanId) (p : PairId) (s : State) : Host.Outcome State Fault Refusal :=
  .next (match (s.proc p).phase with
    | some (.cancelling scope restrict r) =>
      if r.todo.contains (.channel c) then
        if (s.chan c).inRestriction restrict then
          s.removeWaiting p c (cancelReaches p scope) fun x => x.without (cancelReaches p scope)
        else s.answerExcluded p (.channel c)
      else s
    | _ => s)

/-- The channel with every batch removed (R85, R99). -/
def Channel.emptied (x : Channel) : Channel := { x with openBatch := none, closed := [] }

/-- CHANNEL_CANCEL_AXIS (R99): a channel that is not bound to the axis answers 0 (R185). -/
def execChannelCancelAxis (c : ChanId) (s : State) : Host.Outcome State Fault Refusal :=
  .next (match (s.proc 0).phase with
    | some (.cancellingAxis a r) =>
      if r.todo.contains (.channel c) then
        if (s.chan c).boundTo a then s.removeWaiting 0 c (fun _ => true) Channel.emptied
        else s.answerExcluded 0 (.channel c)
      else s
    | _ => s)

/-- The channel with the batches of a pair removed (R99). -/
def Channel.withoutPair (x : Channel) (p : PairId) : Channel :=
  { x with
    openBatch := x.openBatch.filter fun b => b.owner != p
    closed := x.closed.filter fun b => b.owner != p }

/-- CHANNEL_DISCARD_PAIR (R99, R151). -/
def execChannelDiscardPair (c : ChanId) (s : State) : Host.Outcome State Fault Refusal :=
  .next (match (s.proc 0).phase with
    | some (.discarding p r _) =>
      if r.todo.contains (.channel c) then
        s.removeWaiting 0 c (fun e => e.owner == p) fun x => x.withoutPair p
      else s
    | _ => s)

end Sys2Proof.Machine
end

