-- ==== Sys2Proof/Machine/Monitor.lean ====
section
/-! DEFINITION. The Monitor Table (07): the check event, and the records MONITOR_CONFIG, MONITOR_RELEASE and MONITOR_GLOBAL. -/

namespace Sys2Proof.Machine

/-! ## Samples (R127, R129) -/

/-- The sample of OVERSPEED on an axis (R127). -/
def Axis.overspeed (x : Axis) (threshold : Nat) : Sample := ⟨x.counting && decide (threshold < x.moved), x.moved⟩

/-- The sample of QUAD_ERROR on an axis (R127). -/
def Axis.quadError (x : Axis) (threshold : Nat) : Sample := ⟨decide (threshold < x.illegal), x.illegal⟩

/-- The sample of INDEX_SPACING on an axis (R127). -/
def Axis.indexSpacing (x : Axis) : Sample := ⟨x.spacingError, x.spacingError.toNat⟩

/-- The sample of LINE_FEEDBACK on a line with the level of FBn (R119, R129). Its value holds the driven level at bit 0, the feedback
level at bit 1 and DISABLED at bit 2 (R194); both levels of a DISABLED line show as inactive (DESIGN CHOICE, log 41). -/
def Line.feedbackSample (l : Line) (fb : Bool) : Sample :=
  ⟨l.drive.isSome && (l.feedbackLevel fb != l.driven), bitsNat [l.driven, l.feedbackLevel fb, l.drive.isNone]⟩

/-- The sample of a slot's kind at a check, with the levels of FB0 to FB15 (R124, step 1). -/
def State.sample (s : State) (fb : Vector Bool 16) : SlotKind → Sample
  | .overspeed a t => (s.axis a).overspeed t
  | .quadError a t => (s.axis a).quadError t
  | .indexSpacing a => (s.axis a).indexSpacing
  | .lineFeedback n => (s.line n).feedbackSample fb[n]

/-! ## Judging (R128, R130 to R133) -/

/-- A run after one more check: it stops at 255 (R130). -/
def runUp (n : Nat) : Nat := satAdd 255 n 1

/-- A slot with its runs and its last sample updated (R130). -/
def Slot.sampled (m : Slot) (x : Sample) : Slot :=
  if x.present then { m with presentRun := runUp m.presentRun, absentRun := 0, last := some x }
  else { m with presentRun := 0, absentRun := runUp m.absentRun, last := some x }

/-- Where a sampled slot goes (R130). -/
inductive Verdict where
  | rest (state : SlotState)
  | trip
  | recover
  deriving DecidableEq, Repr

/-- The move of a sampled slot (R130). -/
def Slot.verdict (m : Slot) (g : SlotConfig) (present : Bool) : Verdict :=
  match m.state with
  | .off => .rest .off
  | .clear => if present then (if g.qualify ≤ 1 then .trip else .rest .pending) else .rest .clear
  | .pending => if present then (if g.qualify ≤ m.presentRun then .trip else .rest .pending) else .rest .clear
  | .tripped =>
    match g.severity with
    | .warn r => if present = false ∧ r ≤ m.absentRun then .recover else .rest .tripped
    | .hold => .rest .tripped
    | .latch => .rest .tripped

/-- The slot after its move (R130, R131, R133). -/
def Slot.moved (m : Slot) : Verdict → Slot
  | .rest st => { m with state := st }
  | .trip => { m with state := .tripped }
  | .recover => { m with state := .clear, presentRun := 0, absentRun := 0 }

/-- The configuration and the sample on which a slot is judged at a check: none when it is OFF or at its opening check (R128). -/
def State.judgedOn (s : State) (fb : Vector Bool 16) (m : SlotId) : Option (SlotConfig × Sample) :=
  match (s.slot m).config with
  | some g => if (s.slot m).opening then none else some (g, s.sample fb g.kind)
  | none => none

/-- The slot after a check (R128, R130). -/
def State.checkedSlot (s : State) (fb : Vector Bool 16) (m : SlotId) : Slot :=
  match s.judgedOn fb m with
  | some (g, x) => ((s.slot m).sampled x).moved (((s.slot m).sampled x).verdict g x.present)
  | none => { s.slot m with opening := false }

/-- The move of a slot at a check, if it is judged. -/
def State.checkVerdict (s : State) (fb : Vector Bool 16) (m : SlotId) : Option (SlotConfig × Sample × Verdict) :=
  (s.judgedOn fb m).map fun (g, x) => (g, x, ((s.slot m).sampled x).verdict g x.present)

/-- The notice that a slot hands at a check, if it hands one (R131, R133, R138, R139). -/
def State.checkNotice (s : State) (fb : Vector Bool 16) (m : SlotId) : Option Notice :=
  match s.checkVerdict fb m with
  | some (g, x, .trip) => some (.monitorTripped m g x.value ((s.slot m).sampled x).presentRun s.ts)
  | some (g, x, .recover) => some (.monitorRecovered m g x.value ((s.slot m).sampled x).absentRun s.ts)
  | _ => none

/-- The kind of a slot that sends its request at a check (R131). -/
def State.checkRequest (s : State) (fb : Vector Bool 16) (m : SlotId) : Option SlotKind :=
  match s.checkVerdict fb m with
  | some (g, _, .trip) => if g.severity.holds then some g.kind else none
  | _ => none

/-- The request of a trip, by its kind (R134). -/
def State.sendTrip (s : State) (k : SlotKind) : State :=
  match k with
  | .overspeed a _ => s.sendHold a .trip
  | .quadError a _ => s.sendHold a .trip
  | .indexSpacing a => s.sendHold a .trip
  | .lineFeedback n => s.tellTrip n .trip

/-! ## The check event (R124) -/

/-- The check deadline that has expired, if it has (R5, R124). -/
def State.checkDue (s : State) : Option Nat := if s.monitor.enable && s.monitor.expired then s.monitor.deadline else none

/-- At least one slot that is not OFF names the axis. -/
def State.axisWatched (s : State) (a : AxisId) : Bool :=
  s.slots.toList.any fun m =>
    match m.config with
    | some g => g.kind.axis == some a
    | none => false

/-- The read of the counters of every axis that a slot names, which zeroes them (R34, R124). -/
def State.readCounters (s : State) : State :=
  s.updAxes fun a x => if s.axisWatched a then { x with moved := 0, illegal := 0 } else x

/-- The notices of a check, in slot order (R124, step 3). -/
def State.checkNotices (s : State) (fb : Vector Bool 16) : List Notice := (List.finRange 24).filterMap (s.checkNotice fb)

/-- The requests of a check, in slot order (R124, step 3). -/
def State.checkRequests (s : State) (fb : Vector Bool 16) : List SlotKind := (List.finRange 24).filterMap (s.checkRequest fb)

/-- The check event (R124) of this deadline: reads, judging, hand-over, and the next deadline. Its stamp is the timestamp when the
table takes it (R3). -/
def State.check (s : State) (fb : Vector Bool 16) (deadline : Nat) : State :=
  let judged := s.readCounters.updSlots fun m _ => s.checkedSlot fb m
  let told := { judged with
    nqReq := judged.nqReq ++ s.checkNotices fb
    pins := { judged.pins with fb := fb }
    monitor :=
      { judged.monitor with deadline := some (deadlineAt deadline (Config.ticksPerUnit * judged.monitor.period)), expired := false } }
  (s.checkRequests fb).foldl State.sendTrip told

/-- The table takes the expiry of its check deadline, if the deadline has expired (R124). -/
def State.takeCheck (s : State) (fb : Vector Bool 16) : State :=
  match s.checkDue with
  | some d => s.check fb d
  | none => s

/-- CHECK_EVENT (R124). -/
def execCheckEvent (fb : Vector Bool 16) (s : State) : Host.Outcome State Fault Refusal := .next (s.takeCheck fb)

/-! ## The monitor records (R122, R126, R136, R182) -/

/-- A slot that an accepted MONITOR_CONFIG has enabled (R126). -/
def enabledSlot (g : SlotConfig) : Slot := ⟨some g, .clear, 0, 0, none, true⟩

/-- MONITOR_CONFIG (R126). -/
def execMonitorConfig (r : Record) (s : State) : Host.Outcome State Fault Refusal :=
  .next (s.onRecord r .monitorConfig fun p s =>
    let m := r.slotAt 8
    if (s.slot m).state = .tripped then s.handAck p .monitorTripped 0 s.ts
    else (s.updSlot m fun _ => if r.flag 0 then enabledSlot r.slotConfig else blankSlot).handAck p .ok 0 s.ts)

/-- The answer to a MONITOR_RELEASE of a TRIPPED slot (R136, rules 2 to 4). -/
def Slot.releaseTest (m : Slot) : Option Status :=
  match m.config with
  | some g =>
    if g.severity = .latch then some .monitorLatched
    else
      match m.last with
      | some x => if x.present then some .conditionPresent else none
      | none => none
  | none => none

/-- The release notice that a slot returned to CLEAR sends (R137). -/
def State.sendRelease (s : State) (m : SlotId) : State :=
  match (s.slot m).standing with
  | some (.lineFeedback n) => s.tellTrip n .release
  | _ => s

/-- MONITOR_RELEASE (R136, R137). -/
def execMonitorRelease (r : Record) (s : State) : Host.Outcome State Fault Refusal :=
  .next (s.onRecord r .monitorRelease fun p s =>
    let m := r.slotAt 8
    if (s.slot m).state = .tripped then
      match (s.slot m).releaseTest with
      | some st => s.handAck p st 0 s.ts
      | none =>
        ((s.sendRelease m).updSlot m fun x => { x with state := .clear, presentRun := 0, absentRun := 0 }).handAck p .ok 0 s.ts
    else s.handAck p .ok 0 s.ts)

/-- The slot when the global enable goes from off to on (R122). -/
def Slot.opened (m : Slot) : Slot := if m.config.isSome then { m with opening := true } else m

/-- The slot when the global enable goes from on to off (R123). -/
def Slot.unqualified (m : Slot) : Slot := if m.state = .pending then { m with state := .clear, presentRun := 0 } else m

/-- MONITOR_GLOBAL (R122, R123), taken at the table: it stores the period, and sets or discards the check deadline. -/
def State.setGlobal (s : State) (enable : Bool) (period : Nat) : State :=
  let due := some (deadlineAt s.ts (Config.ticksPerUnit * period))
  let set (deadline : Option Nat) (s : State) : State := { s with monitor := ⟨enable, period, deadline, false⟩ }
  match s.monitor.enable, enable with
  | false, true => set due (s.updSlots fun _ m => m.opened)
  | true, true => set due s
  | false, false => { s with monitor := { s.monitor with period := period } }
  | true, false => set none (s.updSlots fun _ m => m.unqualified)

/-- MONITOR_GLOBAL (R122). -/
def execMonitorGlobal (r : Record) (s : State) : Host.Outcome State Fault Refusal :=
  .next (s.onRecord r .monitorGlobal fun p s => (s.setGlobal (r.flag 0) (r.u16 8)).handAck p .ok 0 s.ts)

end Sys2Proof.Machine
end

