-- ==== Sys2Proof/Machine/Rings.lean ====
section
/-! DEFINITION. The Ring Engine's own events (08): fetch grants and reads, posting, the write engine and its answers. -/

namespace Sys2Proof.Machine

/-! ## Fetching (R153, R154, R148, R163) -/

/-- The pair is ACTIVE and not stopped (R148, R153). -/
def State.inService (s : State) (p : PairId) : Bool := decide ((s.pair p).state = .active) && !s.stopped p

/-- The pair requests a fetch (R153). -/
def State.wantsFetch (s : State) (p : PairId) : Bool :=
  s.enable && s.inService p && ((s.pair p).sqPost != (s.pair p).sqHead) && !s.granted p && !s.inProgress p &&
    decide (1 ≤ (s.pair p).free)

/-- The work pairs in the order in which they are looked at after the last one served: on from it, round 1 to 8 (R154). -/
def roundFrom (last : PairId) : List PairId :=
  (List.range 8).map fun k => Fin.ofNat 9 ((last.val + k) % 8 + 1)

/-- The pair that the arbiter grants next, if any requests (R154). -/
def State.nextGrant (s : State) : Option PairId :=
  if s.wantsFetch 0 then some 0 else (roundFrom s.lastServed).find? s.wantsFetch

/-- The address of the submission slot at the pair's SQ head (R145, R154). -/
def Pair.sqAddr (q : Pair) : W64 := q.sqBase + BitVec.ofNat 64 (64 * q.sqHead)

/-- A grant (R154): one slot of the pair's completion ring is reserved and the read is issued. -/
def State.grant (s : State) (p : PairId) : State :=
  { (s.updPair p fun q => { q with reserved := true }) with
    engine := some ⟨p, (s.pair p).sqAddr⟩
    lastServed := if p = 0 then s.lastServed else p }

/-- FETCH_GRANT (R154). -/
def execFetchGrant (s : State) : Host.Outcome State Fault Refusal :=
  .next (match s.engine with
    | some _ => s
    | none =>
      match s.nextGrant with
      | some p => s.grant p
      | none => s)

/-- The outstanding read ends without a record: the reservation is released and the engine is free (R148, R163). -/
def State.endRead (s : State) (p : PairId) : State :=
  { (s.updPair p fun q => { q with reserved := false }) with engine := none }

/-- FETCH_BUS_ERROR (R163). -/
def execFetchBusError (s : State) : Host.Outcome State Fault Refusal :=
  .next (match s.engine with
    | some e => (s.endRead e.pair).pairError e.pair .fetchError
    | none => s)

/-- FETCH_READ_DISCARDED (R148): a read that completes for a stopped pair. -/
def execFetchReadDiscarded (s : State) : Host.Outcome State Fault Refusal :=
  .next (match s.engine with
    | some e => if s.stopped e.pair then s.endRead e.pair else s
    | none => s)

/-! ## Posting (R156 to R158) -/

/-- A pending lost count as lost_before shows it (R158). -/
def lostBefore (pending : Nat) : Nat := min 65535 pending

/-- The completion ring accepts a record (R156, R158): its slot is the write tail. -/
def Pair.accept (q : Pair) : Pair := { q with cqWrite := (q.cqWrite + 1) % q.cqSize, pendLost := 0 }

/-- The accepted record waits its turn at the write engine (R158, R159). -/
def State.acceptCq (s : State) (p : PairId) (r : CqRequest) : State :=
  let q := s.pair p
  { (s.updPair p Pair.accept) with
    writeQ := s.writeQ ++ [.record (.cq p) q.cqWrite ((q.cqWrite + 1) % q.cqSize) (r.bytes (lostBefore q.pendLost))] }

/-- A record for the ring of a stopped pair is not written, and is counted (R148, R156). -/
def Pair.countStopped (q : Pair) : Pair := { q with totLost := satAdd max32 q.totLost 1 }

/-- A report that finds no free unreserved slot is lost (R156). -/
def Pair.loseReport (q : Pair) : Pair :=
  { q with pendLost := satAdd max32 q.pendLost 1, totLost := satAdd max32 q.totLost 1 }

/-- The pair's reservation is released (R146, R148). -/
def Pair.unreserve (q : Pair) : Pair := { q with reserved := false }

/-- The completion ring takes an ack (R156), and the pair's record processor is idle (R168). -/
def State.takeAck (s : State) (p : PairId) (r : CqRequest) : State :=
  let s := s.setProc p .idle
  if (s.pair p).state = .absent then s
  else if s.stopped p then s.updPair p fun q => q.unreserve.countStopped
  else (s.updPair p Pair.unreserve).acceptCq p r

/-- The completion ring takes a FIRE or RETIRE report (R156). -/
def State.takeReport (s : State) (p : PairId) (r : CqRequest) : State :=
  if (s.pair p).state = .absent then s
  else if s.stopped p then s.updPair p Pair.countStopped
  else if 1 ≤ (s.pair p).free then s.acceptCq p r
  else s.updPair p Pair.loseReport

/-- The completion ring takes a posting request (R156). -/
def State.takeRequest (s : State) (p : PairId) (r : CqRequest) : State :=
  match r with
  | .ack _ => s.takeAck p r
  | .fire _ => s.takeReport p r
  | .retire _ => s.takeReport p r

/-- POST_COMPLETION (R156): the ring takes the oldest request handed to it. -/
def execPostCompletion (p : PairId) (s : State) : Host.Outcome State Fault Refusal :=
  .next (match s.requests p with
    | r :: rest => (s.setRequests p rest).takeRequest p r
    | [] => s)

/-- The notice ring accepts a notice (R157, R158). -/
def State.acceptNotice (s : State) (n : Notice) : State :=
  let q := s.nq
  let next := (q.write + 1) % q.size
  { s with
    nq := { q with write := next, pendLost := 0 }
    writeQ := s.writeQ ++ [.record .nq q.write next (n.bytes (lostBefore q.pendLost))] }

/-- The notice ring takes a notice (R157). -/
def State.takeNotification (s : State) (n : Notice) : State :=
  match s.nq.state with
  | .unset => s
  | .error => { s with nq := { s.nq with totLost := satAdd max32 s.nq.totLost 1 } }
  | .active =>
    if 1 ≤ s.nq.free then s.acceptNotice n
    else { s with nq := { s.nq with pendLost := satAdd max32 s.nq.pendLost 1, totLost := satAdd max32 s.nq.totLost 1 } }

/-- POST_NOTICE (R157): the notice ring takes the oldest notice handed to it. -/
def execPostNotice (s : State) : Host.Outcome State Fault Refusal :=
  .next (match s.nqReq with
    | n :: rest => { s with nqReq := rest }.takeNotification n
    | [] => s)

/-! ## The write engine (R159, R164) -/

/-- WRITE_ISSUE (R159): the oldest accepted write goes onto the bus, which carries one write at a time. Its address is formed here, so
a status block write goes to the STATUS_BLOCK_BASE of this moment, also when that was rewritten since the write was queued (R147 does
not say; DESIGN CHOICE, log 37). -/
def execWriteIssue (s : State) : Host.Outcome State Fault Refusal :=
  .next (match s.onBus, s.writeQ with
    | none, w :: rest => { s with writeQ := rest, onBus := some ⟨w, s.writeAddr w, false⟩ }
    | _, _ => s)

/-- The write on the bus has been answered. -/
def State.endWrite (s : State) : State := { s with onBus := none }

/-- RECORD_WRITE_DONE (R159): a status block write of the ring's tail is queued. -/
def execRecordWriteDone (s : State) : Host.Outcome State Fault Refusal :=
  .next (match s.onBus with
    | some ⟨.record ring _ next _, _, stale⟩ =>
      if stale then s.endWrite else { s.endWrite with writeQ := s.writeQ ++ [.tail ring next true] }
    | _ => s)

/-- A record write fails (R164): the record is lost, and its ring's pair or the notice ring takes the error. -/
def State.recordError (s : State) (ring : RingId) : State :=
  match ring with
  | .cq p => (s.updPair p Pair.countStopped).pairError p .postError
  | .nq => { s with nq := { s.nq with totLost := satAdd max32 s.nq.totLost 1 } }.failNoticeRing

/-- RECORD_WRITE_ERROR (R164). R144 exempts a write for an older admin completion ring from moving an index alone, so its error is one
of pair 0 as ever. The error of a notice of an older notice ring (R152), and of a record of a pair that has become ABSENT since (R151),
has no effect on the ring or pair that has taken its place (DEDUCED, log 38). -/
def execRecordWriteError (s : State) : Host.Outcome State Fault Refusal :=
  .next (match s.onBus with
    | some ⟨.record ring _ _ _, _, stale⟩ =>
      if stale = true ∧ ring ≠ .cq 0 then s.endWrite else s.endWrite.recordError ring
    | _ => s)

/-- The published tail of a ring takes a value (R146, R159). -/
def State.publish (s : State) (ring : RingId) (value : Nat) : State :=
  match ring with
  | .cq p => s.updPair p fun q => { q with cqPub := value }
  | .nq => { s with nq := { s.nq with pub := value } }

/-- What the answer to a status block write moves: the published tail, when the write follows a record's and its ring is still
there (R144, R151, R159). -/
def State.answerStatus (s : State) (w : QueuedWrite) (stale : Bool) : State :=
  match w with
  | .tail ring value publishes => if publishes = true ∧ stale = false then s.publish ring value else s
  | _ => s

/-- A write of a status block field. -/
def QueuedWrite.isStatus : QueuedWrite → Bool
  | .head _ _ => true
  | .tail _ _ _ => true
  | _ => false

/-- STATUS_BLOCK_WRITE_DONE (R159). -/
def execStatusBlockWriteDone (s : State) : Host.Outcome State Fault Refusal :=
  .next (match s.onBus with
    | some b => if b.write.isStatus then s.endWrite.answerStatus b.write b.stale else s
    | none => s)

/-- STATUS_BLOCK_WRITE_ERROR (R164): FAULT is set with cause STATUS_WRITE, and the published tail advances all the same (R146). -/
def execStatusBlockWriteError (s : State) : Host.Outcome State Fault Refusal :=
  .next (match s.onBus with
    | some b => if b.write.isStatus then (s.endWrite.answerStatus b.write b.stale).setFault .statusWrite else s
    | none => s)

/-- QUERY_WRITE_DONE (R184): the write of the snapshot is answered, and so is the record. -/
def execQueryWriteDone (success : Bool) (s : State) : Host.Outcome State Fault Refusal :=
  .next (match s.onBus, (s.proc 0).phase with
    | some ⟨.snapshot _ _, _, _⟩, some (.querying stamp) =>
      s.endWrite.handAck 0 (if success then .ok else .busError) 0 stamp
    | _, _ => s)

end Sys2Proof.Machine
end

