-- ==== Sys2Proof/Machine/Records.lean ====
section
/-! DEFINITION. The work records (09.2) with the events of their record processors, and BAD_KIND and NOP of either ring. -/

namespace Sys2Proof.Machine

/-! ## BAD_KIND and NOP (R169, R173) -/

/-- The pair whose outstanding read this record answers with a kind that its ring does not have (R169). -/
def State.badKindFor (s : State) (r : Record) : Option PairId :=
  match s.engine with
  | some e => if s.stopped e.pair = false ∧ Kind.onRing e.pair (r.byte 0) = none then some e.pair else none
  | none => none

/-- BAD_KIND (R169): the record is refused before any field but its cookie is read. -/
def execBadKind (r : Record) (s : State) : Host.Outcome State Fault Refusal :=
  .next (match s.badKindFor r with
    | some p => (s.startRecord p r).handAck p .badKind 0 s.ts
    | none => s)

/-- NOP (R173). -/
def execNop (r : Record) (s : State) : Host.Outcome State Fault Refusal :=
  .next (s.onRecord r .nop fun p s => s.handAck p .ok 0 s.ts)

/-! ## ARM and ARM_DEFERRED (R174, R176) -/

/-- Steps 4 and 5 of an ARM (R174): none when they pass, and otherwise the status with its detail. -/
def State.armTest (s : State) (e : Entry) (pos : Int) : Option (Status × Nat) :=
  match (s.axis e.axis).config with
  | none => some (.notConfigured, 0)
  | some g =>
    if posOutside g.kind pos then some (.badField, 5)
    else if pitchTooWide g.kind e then some (.badField, 6)
    else (lineTest (s.line e.line) e.axis).map fun st => (st, 0)

/-- ARM (R174): a record that passes steps 1 to 5 asks for its entry. -/
def execArm (r : Record) (s : State) : Host.Outcome State Fault Refusal :=
  .next (s.onRecord r .arm fun p s =>
    let e := r.entry p (r.axisAt 27)
    match s.armTest e (r.s32 12) with
    | some (st, detail) => s.handAck p st detail s.ts
    | none => s.setPhase p (.allocateArm e (r.s32 12)))

/-- Steps 4 and 5 of an ARM_DEFERRED of a pair (R176): the status with its detail, or the entry with its offset. -/
def State.armDeferredTest (s : State) (r : Record) (p : PairId) : (Status × Nat) ⊕ Waiting :=
  match (s.chan (r.chanAt 27)).config with
  | none => .inl (.lineAxis, 0)
  | some g =>
    let e := r.entry p g.axis
    let tooWide := match (s.axis g.axis).config with
      | some x => pitchTooWide x.kind e
      | none => false
    if tooWide then .inl (.badField, 6)
    else
      match lineTest (s.line e.line) g.axis with
      | some st => .inl (st, 0)
      | none => .inr ⟨e, r.s32 12⟩

/-- ARM_DEFERRED (R176): a record that passes steps 1 to 5 asks for its entry. -/
def execArmDeferred (r : Record) (s : State) : Host.Outcome State Fault Refusal :=
  .next (s.onRecord r .armDeferred fun p s =>
    match s.armDeferredTest r p with
    | .inl (st, detail) => s.handAck p st detail s.ts
    | .inr w => s.setPhase p (.allocateDeferred w (r.chanAt 27) (r.flag 1)))

/-! ## CANCEL and the answers of a removal (R177, R185) -/

/-- The eight capture channels. -/
def allChannels : List Block := (List.finRange 8).map Block.channel

/-- A removal request on its way to the four lists and the eight channels (R177): a list that the restriction excludes answers 0 at
once. -/
def removalOf (restrict : Option AxisId) : Removing where
  todo := ((List.finRange 4).filter fun a => restrict = none ∨ restrict = some a).map Block.list ++ allChannels
  answers := ((List.finRange 4).filter fun a => ¬(restrict = none ∨ restrict = some a)).map fun _ => (0, 0)
  sum := 0
  stamp := 0

/-- CANCEL (R177). -/
def execCancel (r : Record) (s : State) : Host.Outcome State Fault Refusal :=
  .next (s.onRecord r .cancel fun p s => s.setPhase p (.cancelling r.cancelScope r.restriction (removalOf r.restriction)))

/-- The processor takes one answer: its count enters the sum, and the later stamp stays (R177). -/
def Removing.take (x : Removing) (count stamp : Nat) (rest : List (Nat × Nat)) : Removing :=
  { x with answers := rest, sum := x.sum + count, stamp := max x.stamp stamp }

/-- Every block has answered and every answer is taken. -/
def Removing.done (x : Removing) : Bool := x.todo.isEmpty && x.answers.isEmpty

/-- The end of a CANCEL (R177): NOT_FOUND when the sum is 0. -/
def State.endCancel (s : State) (p : PairId) (x : Removing) : State :=
  if x.sum = 0 then s.handAck p .notFound 0 x.stamp else s.handAck p .ok x.sum x.stamp

/-- REMOVAL_ANSWER (R177, R185): the processor takes one answer; the last one ends a CANCEL or a CANCEL_AXIS. The answers of a
discard add up until DISCARD_COMPLETE (R151). -/
def execRemovalAnswer (p : PairId) (s : State) : Host.Outcome State Fault Refusal :=
  .next (match (s.proc p).phase with
    | some (.cancelling scope restrict x) =>
      match x.answers with
      | (n, t) :: rest =>
        let x := x.take n t rest
        if x.done then s.endCancel p x else s.setPhase p (.cancelling scope restrict x)
      | [] => s
    | some (.cancellingAxis a x) =>
      match x.answers with
      | (n, t) :: rest =>
        let x := x.take n t rest
        if x.done then s.handAck p .ok x.sum x.stamp else s.setPhase p (.cancellingAxis a x)
      | [] => s
    | some (.discarding q x emptied) =>
      match x.answers with
      | (n, t) :: rest => s.setPhase p (.discarding q (x.take n t rest) emptied)
      | [] => s
    | _ => s)

/-! ## LINE_WRITE (R178) -/

/-- LINE_WRITE (R178): the write is delivered to its line, which takes it by LINE_HOST_WRITE. -/
def execLineWrite (r : Record) (s : State) : Host.Outcome State Fault Refusal :=
  .next (s.onRecord r .lineWrite fun p s => s.setPhase p (.writing (r.lineAt 8) (actionOf (r.u8 9) (r.u32 12) (r.u8 10))))

/-! ## BARRIER (R179, R180) -/

/-- A group lies in the scope of a BARRIER (R179). -/
def BarrierScope.fits (x : BarrierScope) (group : Byte) : Bool :=
  match x with
  | .group g => group == g
  | .all => true

/-- The number of a pair's live entries in a scope (R52, R179). -/
def State.liveIn (s : State) (p : PairId) (scope : BarrierScope) : Nat :=
  s.liveEntries.countP fun e => e.owner == p && scope.fits e.group

/-- The deadline of a BARRIER; a timeout of 0 sets none (R179). -/
def barrierDeadline (ts timeout : Nat) : Option Nat := if timeout = 0 then none else some (deadlineAt ts timeout)

/-- BARRIER (R179). -/
def execBarrier (r : Record) (s : State) : Host.Outcome State Fault Refusal :=
  .next (s.onRecord r .barrier fun p s =>
    let n := s.liveIn p r.barrierScope
    if n = 0 then s.handAck p .ok 0 s.ts
    else s.setPhase p (.waiting ⟨r.barrierScope, n, barrierDeadline s.ts (r.u32 8), false, []⟩))

/-- BARRIER_RELEASE_NOTICE (R179, R180): the processor takes the oldest release notice sent to it. -/
def execBarrierReleaseNotice (p : PairId) (s : State) : Host.Outcome State Fault Refusal :=
  .next (match (s.proc p).phase with
    | some (.waiting b) =>
      match b.notices with
      | (g, t) :: rest =>
        if b.scope.fits g then
          if b.remaining ≤ 1 then s.handAck p .ok 0 t
          else s.setPhase p (.waiting { b with notices := rest, remaining := b.remaining - 1 })
        else s.setPhase p (.waiting { b with notices := rest })
      | [] => s
    | _ => s)

/-- BARRIER_TIMEOUT (R180): the processor takes the expiry of the deadline. No tick comes between the expiry tick and this event (log
40), so the ack carries the stamp of the expiry tick. -/
def execBarrierTimeout (p : PairId) (s : State) : Host.Outcome State Fault Refusal := .next (s.timeOut p)

end Sys2Proof.Machine
end

