-- ==== Sys2Proof/Machine/Admin.lean ====
section
/-! DEFINITION. The admin records (09.3): pair management, the axis, line and capture records, QUERY and CANCEL_AXIS. The monitor
records stand in Monitor.lean. -/

namespace Sys2Proof.Machine

/-! ## Pairs (R149 to R151, R183) -/

/-- The pair that a CREATE_PAIR describes (R149). -/
def Record.newPair (r : Record) : Pair where
  state := .active
  cause := none
  sqBase := BitVec.ofNat 64 (r.u64 16)
  cqBase := BitVec.ofNat 64 (r.u64 24)
  sqSize := r.u16 32
  cqSize := r.u16 34
  sqHead := 0
  sqPost := 0
  cqWrite := 0
  cqPub := 0
  cqDone := 0
  reserved := false
  pendLost := 0
  totLost := 0

/-- The pair's quota and live count at the Entry Pool (R47, R149, R151). -/
def State.setQuota (s : State) (p : PairId) (quota : Nat) : State :=
  { s with pool := { s.pool with quota := s.pool.quota.set p quota, live := s.pool.live.set p 0 } }

/-- Status block writes of a pair's SQ head and CQ tail with the value 0 are queued (R147). -/
def State.queueZeros (s : State) (p : PairId) : State :=
  { s with writeQ := s.writeQ ++ [.head p 0, .tail (.cq p) 0 false] }

/-- CREATE_PAIR (R149). -/
def execCreatePair (r : Record) (s : State) : Host.Outcome State Fault Refusal :=
  .next (s.onRecord r .createPair fun p s =>
    let q := r.pairAt 8
    if (s.pair q).state ≠ .absent then s.handAck p .pairExists 0 s.ts
    else (((s.updPair q fun _ => Record.newPair r).setQuota q (r.u16 36)).queueZeros q).handAck p .ok 0 s.ts)

/-- A DELETE_PAIR ends a BARRIER of its pair with ABORTED (R150, R180). -/
def State.abortBarrier (s : State) (p : PairId) : State :=
  match (s.proc p).phase with
  | some (.waiting b) => s.handAck p .aborted b.remaining s.ts
  | _ => s

/-- DELETE_PAIR (R150): the drain starts. -/
def execDeletePair (r : Record) (s : State) : Host.Outcome State Fault Refusal :=
  .next (s.onRecord r .deletePair fun p s =>
    let q := r.pairAt 8
    if (s.pair q).state = .absent then s.handAck p .pairAbsent 0 s.ts
    else
      ((s.updPair q fun x => { x with state := .draining }).abortBarrier q).setPhase p (.draining q (r.flag 0)))

/-- The write on the bus moves nothing when it is answered, if `gone` holds of it (R151, R152). -/
def State.staleWhen (s : State) (gone : QueuedWrite → Bool) : State :=
  { s with onBus := s.onBus.map fun b => { b with stale := b.stale || gone b.write } }

/-- A pair becomes ABSENT (R151): it keeps its error cause until CREATE_PAIR (R148). Posting requests for its ring that wait to be
taken are discarded with it (log 14). -/
def State.becomeAbsent (s : State) (p : PairId) : State :=
  let s := (s.updPair p fun q => { absentPair with cause := q.cause }).setQuota p 0
  let s := s.updChans fun _ c => { c with openBatch := c.openBatch.filter fun b => b.owner != p }
  let s := s.updLists fun _ l => { l with discarding := l.discarding.filter fun q => q != p }
  let s := (s.setRequests p []).staleWhen fun w => w.ofPair p
  ({ s with writeQ := s.writeQ.filter fun w => !w.ofPair p }).queueZeros p

/-- The state that a pair whose drain ends with live entries returns to (R151). -/
def Pair.undrained (q : Pair) : Pair := { q with state := if q.cause = none then .active else .error }

/-- The discard of a pair, sent to the four lists and the eight channels (R151). `emptied` holds from the start when the pair has no
live entry. -/
def State.startDiscard (s : State) (p : PairId) : State :=
  s.setPhase 0 (.discarding p (removalOf none) (if s.pool.live[p] = 0 then some s.ts else none))

/-- DRAIN_END (R150, R151). -/
def execDrainEnd (s : State) : Host.Outcome State Fault Refusal :=
  .next (match (s.proc 0).phase with
    | some (.draining p discard) =>
      if s.granted p || s.inProgress p then s
      else if discard then s.startDiscard p
      else if s.pool.live[p] = 0 then (s.becomeAbsent p).handAck 0 .ok 0 s.ts
      else (s.updPair p Pair.undrained).handAck 0 .pairHasEntries s.pool.live[p] s.ts
    | _ => s)

/-- DISCARD_COMPLETE (R151): every block has answered and the pair's live count has reached 0. -/
def execDiscardComplete (s : State) : Host.Outcome State Fault Refusal :=
  .next (match (s.proc 0).phase with
    | some (.discarding p x (some t)) =>
      if x.done = true ∧ s.pool.live[p] = 0 then (s.becomeAbsent p).handAck 0 .ok x.sum t else s
    | _ => s)

/-! ## The notice ring (R152) -/

/-- A record or a tail of the notice ring. -/
def QueuedWrite.ofNotices (w : QueuedWrite) : Bool :=
  match w with
  | .record r _ _ _ => r == .nq
  | .tail r _ _ => r == .nq
  | _ => false

/-- A tail write of the notice ring that was accepted before the ring was set up anew moves no index (R152). -/
def QueuedWrite.unpublished (w : QueuedWrite) : QueuedWrite :=
  match w with
  | .tail .nq v _ => .tail .nq v false
  | _ => w

/-- The notice ring is set up (R152). -/
def State.setNotices (s : State) (base : W64) (size : Nat) : State :=
  let s := s.staleWhen QueuedWrite.ofNotices
  { s with
    nq := ⟨.active, base, size, 0, 0, 0, 0, 0⟩
    writeQ := ((s.writeQ.filter fun w => !w.recordOf .nq).map QueuedWrite.unpublished) ++ [.tail .nq 0 false] }

/-- SET_NOTICE_RING (R152). -/
def execSetNoticeRing (r : Record) (s : State) : Host.Outcome State Fault Refusal :=
  .next (s.onRecord r .setNoticeRing fun p s =>
    (s.setNotices (BitVec.ofNat 64 (r.u64 8)) (r.u16 16)).handAck p .ok 0 s.ts)

/-! ## Axis records (R181) -/

/-- An axis with a new configuration, before the two cases of R12 that hold it. -/
def Axis.configured (x : Axis) (g : AxisConfig) (chA chB : Bool) : Axis :=
  { x with
    config := some g
    state := .stopped
    causes := noCauses
    position := 0
    lastDir := none
    serial := 0
    refA := chA
    refB := chB
    prescaler := 0
    homePending := false
    prevIndex := false
    net := 0
    spacingError := false
    moved := 0
    illegal := 0
    tick := false }

/-- A live entry belongs to the axis (R11). -/
def State.axisHasEntries (s : State) (a : AxisId) : Bool := s.liveEntries.any fun e => e.axis == a

/-- The configuration is accepted (R12, R58): the unit starts afresh, tells its list, lines and channels, and enters HELD when
HOLD_IN is asserted or a standing trip names it, INHIBIT first. -/
def State.configureAxis (s : State) (a : AxisId) (g : AxisConfig) : State :=
  let s := s.updAxis a fun x => x.configured g s.pins.encA[a] s.pins.encB[a]
  let s := s.updList a fun l => { l with nextArm := 0, frozen := false, inbox := [] }
  let s := (s.tellLines a .stop).tellChans a .axisConfig
  let s := if (s.axis a).holdIn then s.hold a .inhibit else s
  if s.axisTripNamed a then s.hold a .trip else s

/-- The refusals of an AXIS_CONFIG, in order (R11). -/
def State.axisConfigTest (s : State) (a : AxisId) : Option Status :=
  match (s.axis a).state with
  | .running => some .axisState
  | .held _ => some .axisState
  | _ => if s.axisHasEntries a then some .axisHasEntries else none

/-- AXIS_CONFIG (R11, R12). -/
def execAxisConfig (r : Record) (s : State) : Host.Outcome State Fault Refusal :=
  .next (s.onRecord r .axisConfig fun p s =>
    match s.axisConfigTest (r.axisAt 8) with
    | some st => s.handAck p st 0 s.ts
    | none => (s.configureAxis (r.axisAt 8) r.axisConfig).handAck p .ok 0 s.ts)

/-- A record that names an axis at byte 8 and depends on its configuration (R170, step 4): an UNCONFIGURED axis is refused
NOT_CONFIGURED (R36). -/
def State.onAxis (s : State) (r : Record) (k : Kind) (f : PairId → AxisId → AxisConfig → State → State) : State :=
  s.onRecord r k fun p s =>
    match (s.axis (r.axisAt 8)).config with
    | some g => f p (r.axisAt 8) g s
    | none => s.handAck p .notConfigured 0 s.ts

/-- An axis that an accepted START makes RUNNING (R23). -/
def Axis.started (x : Axis) : Axis :=
  { x with state := .running, prescaler := 0, prevIndex := false, net := 0, spacingError := false, tick := false }

/-- AXIS_START (R23): the HOLD_IN level is looked at before anything else. -/
def execAxisStart (r : Record) (s : State) : Host.Outcome State Fault Refusal :=
  .next (s.onAxis r .axisStart fun p a _ s =>
    if (s.axis a).holdIn then s.handAck p .inhibited 0 s.ts
    else if (s.axis a).state = .stopped then (s.updAxis a Axis.started).handAck p .ok 0 s.ts
    else s.handAck p .axisState 0 s.ts)

/-- An axis that an accepted STOP makes STOPPED (R24). -/
def Axis.stopped (x : Axis) : Axis := { x with state := .stopped, tick := false }

/-- AXIS_STOP (R24). -/
def execAxisStop (r : Record) (s : State) : Host.Outcome State Fault Refusal :=
  .next (s.onAxis r .axisStop fun p a _ s =>
    if (s.axis a).state = .running then ((s.updAxis a Axis.stopped).tellLines a .stop).handAck p .ok 0 s.ts
    else s.handAck p .axisState 0 s.ts)

/-- AXIS_HALT (R25). -/
def execAxisHalt (r : Record) (s : State) : Host.Outcome State Fault Refusal :=
  .next (s.onAxis r .axisHalt fun p a _ s => (s.hold a .host).handAck p .ok 0 s.ts)

/-- The state of a resume target (R22). -/
def Target.state : Target → AxisState
  | .stopped => .stopped
  | .running => .running

/-- An accepted RESUME (R28): the axis goes to its target with no cause left, its list ends its freeze and its lines return to
INACTIVE. -/
def State.resume (s : State) (a : AxisId) (t : Target) : State :=
  ((s.updAxis a fun x => { x with state := t.state, causes := noCauses }).tellList a .unfreeze).tellLines a .resumed

/-- AXIS_RESUME (R28). -/
def execAxisResume (r : Record) (s : State) : Host.Outcome State Fault Refusal :=
  .next (s.onAxis r .axisResume fun p a _ s =>
    match (s.axis a).state with
    | .held t =>
      if (s.axis a).holdIn then s.handAck p .inhibited 0 s.ts
      else if s.axisTripped a then s.handAck p .axisTripped 0 s.ts
      else (s.resume a t).handAck p .ok 0 s.ts
    | _ => s.handAck p .axisState 0 s.ts)

/-- AXIS_SET_POSITION (R29). -/
def execAxisSetPosition (r : Record) (s : State) : Host.Outcome State Fault Refusal :=
  .next (s.onAxis r .axisSetPosition fun p a g s =>
    if posOutside g.kind (r.s32 12) then s.handAck p .badField 6 s.ts
    else if (s.axis a).state = .running then s.handAck p .axisState 0 s.ts
    else (s.updAxis a fun x => { x with position := r.s32 12 }).handAck p .ok 0 s.ts)

/-- AXIS_HOME (R33). -/
def execAxisHome (r : Record) (s : State) : Host.Outcome State Fault Refusal :=
  .next (s.onAxis r .axisHome fun p a g s =>
    if g.indexMode ≠ .homeOnce then s.handAck p .indexMode 0 s.ts
    else if r.flag 0 then
      if (s.axis a).homePending then (s.updAxis a fun x => { x with homePending := false }).handAck p .ok 0 s.ts
      else s.handAck p .notPending 0 s.ts
    else (s.updAxis a fun x => { x with homePending := true }).handAck p .ok 0 s.ts)

/-! ## LINE_CONFIG (R103 to R105, R182) -/

/-- Step 4 of a LINE_CONFIG (R182): a COMPARE line is bound to a configured axis. -/
def State.bindable (s : State) (g : LineConfig) : Bool :=
  match g with
  | .compare a _ => (s.axis a).config.isSome
  | _ => true

/-- The tests of the line (R104). -/
def Line.configTest (l : Line) : Option Status :=
  if 0 < l.refCount then some .lineInUse else if 0 < l.tripCount then some .lineTripped else none

/-- A line with a new configuration (R105). What its old axis had handed to it is gone: a pulse or a level that it would have
made would be cancelled here (log 8). No fire action waits at a line that no live entry names (R107). -/
def Line.configured (l : Line) (g : LineConfig) (axisHeld : Bool) : Line :=
  let l := { l with config := g, suppressed := 0, axisHeld := axisHeld, tick := false, fromAxis := [] }
  match g with
  | .disabled => { l with state := .undriven }
  | .host _ => { l with state := if l.holdIn then .forced else .inactive }
  | .compare _ _ => { l with state := if axisHeld then .forced else .inactive }

/-- The axis-held indication that a configuration sets, read at the Axis Unit for COMPARE (R105). -/
def State.heldFor (s : State) (g : LineConfig) : Bool :=
  match g with
  | .compare a _ => (s.axis a).isHeld
  | _ => false

/-- LINE_CONFIG (R104, R105). It finds the trip count as the line has taken it: a release notice of an earlier MONITOR_RELEASE that still
waits is not taken first, as it is for a QUERY (R182), and the LINE_CONFIG is refused LINE_TRIPPED (DESIGN CHOICE, log 44). -/
def execLineConfig (r : Record) (s : State) : Host.Outcome State Fault Refusal :=
  .next (s.onRecord r .lineConfig fun p s =>
    let n := r.lineAt 8
    let g := r.lineConfig
    if s.bindable g = false then s.handAck p .notConfigured 0 s.ts
    else
      match (s.line n).configTest with
      | some st => s.handAck p st 0 s.ts
      | none => (s.updLine n fun l => l.configured g (s.heldFor g)).handAck p .ok 0 s.ts)

/-! ## CAPTURE_CONFIG (R84 to R86, R182) -/

/-- The window bound that does not fit the axis (R84, R171): window lo at index 8, window hi at index 9. -/
def badWindow (k : AxisKind) (w : Int × Int) : Option Nat :=
  match k with
  | .linear => if w.1 ≤ w.2 then none else some 9
  | .rotary _ => if posOutside k w.1 then some 8 else if posOutside k w.2 then some 9 else none

/-- Step 4 of a CAPTURE_CONFIG with its enable flag on (R182): none when it passes, and otherwise the status with its detail. -/
def State.captureTest (s : State) (g : ChanConfig) : Option (Status × Nat) :=
  match (s.axis g.axis).config with
  | none => some (.notConfigured, 0)
  | some x =>
    match g.window with
    | some w => (badWindow x.kind w).map fun ix => (.badField, ix)
    | none => none

/-- A channel that an accepted CAPTURE_CONFIG has turned on (R86), with the present level of its input. -/
def enabledChannel (g : ChanConfig) (level : Bool) : Channel := ⟨some g, .accepting, level, 0, 0, none, none, [], []⟩

/-- The channel takes a CAPTURE_CONFIG (R85, R86): `config` is absent when the enable flag is off. -/
def State.configureChan (s : State) (p : PairId) (c : ChanId) (config : Option ChanConfig) (discard : Bool) : State :=
  let x := s.chan c
  match config with
  | some g =>
    if x.waiting ≠ [] then s.handAck p .channelHasEntries 0 s.ts
    else (s.updChan c fun _ => enabledChannel g s.pins.cin[g.input]).handAck p .ok 0 s.ts
  | none =>
    if x.waiting ≠ [] ∧ discard = false then s.handAck p .channelHasEntries 0 s.ts
    else ((s.updChan c fun x => blankChannel x.ref).releaseAll x.waiting).handAck p .ok 0 s.ts

/-- CAPTURE_CONFIG (R85, R86). -/
def execCaptureConfig (r : Record) (s : State) : Host.Outcome State Fault Refusal :=
  .next (s.onRecord r .captureConfig fun p s =>
    let c := r.chanAt 8
    if r.flag 0 then
      match s.captureTest r.chanConfig with
      | some (st, detail) => s.handAck p st detail s.ts
      | none => s.configureChan p c (some r.chanConfig) (r.flag 1)
    else s.configureChan p c none (r.flag 1))

/-! ## QUERY (R184) -/

/-- The object of a QUERY (R184). -/
inductive QueryOf where
  | axis (a : AxisId)
  | line (n : LineId)
  | capture (c : ChanId)
  | monitor (m : SlotId)
  | pair (p : PairId)
  | notices
  | pool
  deriving DecidableEq, Repr

/-- The object that a class code and an index name, once step 3 has let them through (R184, R193). -/
def queryOf (cls index : Nat) : QueryOf :=
  if cls = 0 then .axis (Fin.ofNat 4 index)
  else if cls = 1 then .line (Fin.ofNat 16 index)
  else if cls = 2 then .capture (Fin.ofNat 8 index)
  else if cls = 3 then .monitor (Fin.ofNat 24 index)
  else if cls = 4 then (if index = 9 then .notices else .pair (Fin.ofNat 9 index))
  else .pool

/-- The snapshot of an object (R35, R53, R101, R120, R140, R167, R197). -/
def State.snapshotOf (s : State) (q : QueryOf) : List Byte :=
  match q with
  | .axis a => (s.axis a).snapshot
  | .line n => (s.line n).snapshot s.pins.fb[n]
  | .capture c => (s.chan c).snapshot
  | .monitor m => (s.slot m).snapshot s.monitor
  | .pair p => s.pairSnapshot p
  | .notices => s.nq.snapshot
  | .pool => s.poolSnapshot

/-- What a QUERY of a line finds taken already (R182, log 15): the release notices sent to it, each with what was sent before it. A
trip notice that no release follows may still wait (R120). -/
def State.settle (s : State) (q : QueryOf) : State :=
  match q with
  | .line n => s.takeNotices n (throughRelease (s.line n).fromMonitor)
  | _ => s

/-- The snapshot is handed to the posting unit as one write to the buffer (R184). -/
def State.queueSnapshot (s : State) (q : QueryOf) (addr : W64) : State :=
  { s with writeQ := s.writeQ ++ [.snapshot addr (s.snapshotOf q)] }

/-- QUERY (R184). -/
def execQuery (r : Record) (fb : Vector Bool 16) (s : State) : Host.Outcome State Fault Refusal :=
  .next (s.onRecord r .query fun p s =>
    let q := queryOf (r.u8 8) (r.u8 9)
    let s := { s with pins := { s.pins with fb := fb } }.settle q
    (s.queueSnapshot q (BitVec.ofNat 64 (r.u64 16))).setPhase p (.querying s.ts))

/-! ## CANCEL_AXIS (R185) -/

/-- The removal of a CANCEL_AXIS, on its way to the list of the axis and to the eight channels (R185). -/
def axisRemoval (a : AxisId) : Removing := ⟨.list a :: allChannels, [], 0, 0⟩

/-- CANCEL_AXIS (R185). -/
def execCancelAxis (r : Record) (s : State) : Host.Outcome State Fault Refusal :=
  .next (s.onAxis r .cancelAxis fun p a _ s => s.setPhase p (.cancellingAxis a (axisRemoval a)))

end Sys2Proof.Machine
end

