-- ==== Sys2Proof/Machine/Tick.lean ====
section
/-! DEFINITION. The tick event of the Timebase (R1, R3, R5, R7): TICK. -/

namespace Sys2Proof.Machine

/-- Every record processor takes the expiry of a BARRIER that waits for it (R180). -/
def State.timeOutAll (s : State) : State := (List.finRange 9).foldl State.timeOut s

/-- Every block takes what has to be taken before the next tick (DEDUCED, log 40): an Axis Unit the tick offered to it (R18), a compare
list the count events handed to it, whose stamp its fires carry (R3, R19), a line, a record processor and the Monitor Table the expiry
of a deadline, which is an event of the tick that reaches the deadline (R5). A check taken so finds each FB pin at the level it last
presented (DESIGN CHOICE, log 42). -/
def State.takeDue (s : State) : State :=
  let s := (List.finRange 4).foldl State.prescaleTick s
  let s := (List.finRange 4).foldl State.takeCounts s
  let s := (List.finRange 16).foldl State.endTickPulse s
  let s := s.timeOutAll
  s.takeCheck s.pins.fb

/-- The timestamp rises by one and stays at 2^64-1, and the tick is offered to the owners of time-based state (R1, R7). -/
def State.advanceTime (s : State) : State := { s with ts := satAdd max64 s.ts 1, resetTick := true }.offerTick

/-- TICK (R1). No tick is taken while a full reset is in force (R2). -/
def execTick (s : State) : Host.Outcome State Fault Refusal :=
  .next (if s.resetting = some .full then s else s.takeDue.advanceTime)

end Sys2Proof.Machine
end

