-- ==== Sys2Proof/Machine/Dispatch.lean ====
section
/-! DEFINITION. The one dispatch: each command to its meaning. -/

namespace Sys2Proof.Machine

/-- The effect of a command on everything but the queue of waiting commands. -/
def exec (i : Instr) (s : State) : Host.Outcome State Fault Refusal :=
  match i with
  | .tick => Sys2Proof.Machine.execTick s
  | .fullReset pins => Sys2Proof.Machine.execFullReset pins s
  | .softReset pins => Sys2Proof.Machine.execSoftReset pins s
  | .resetDone => Sys2Proof.Machine.execResetDone s
  | .enableWrite enable => Sys2Proof.Machine.execEnableWrite enable s
  | .statusBlockBaseWrite access value => Sys2Proof.Machine.execStatusBlockBaseWrite access value s
  | .adminSqBaseWrite access value => Sys2Proof.Machine.execAdminSqBaseWrite access value s
  | .adminCqBaseWrite access value => Sys2Proof.Machine.execAdminCqBaseWrite access value s
  | .adminSizesWrite value => Sys2Proof.Machine.execAdminSizesWrite value s
  | .sqPostWrite p value => Sys2Proof.Machine.execSqPostWrite p value s
  | .cqDoneWrite p value => Sys2Proof.Machine.execCqDoneWrite p value s
  | .nqDoneWrite value => Sys2Proof.Machine.execNqDoneWrite value s
  | .irqMaskWrite value => Sys2Proof.Machine.execIrqMaskWrite value s
  | .registerWrite offset value => Sys2Proof.Machine.execRegisterWrite offset value s
  | .countEvent a chA chB => Sys2Proof.Machine.execCountEvent a chA chB s
  | .illegalTransition a chA chB => Sys2Proof.Machine.execIllegalTransition a chA chB s
  | .prescalerExpiry a => Sys2Proof.Machine.execPrescalerExpiry a s
  | .indexEdge a => Sys2Proof.Machine.execIndexEdge a s
  | .holdInAssertAxis a => Sys2Proof.Machine.execHoldInAssertAxis a s
  | .holdInDeassertAxis a => Sys2Proof.Machine.execHoldInDeassertAxis a s
  | .holdInAssertLine n => Sys2Proof.Machine.execHoldInAssertLine n s
  | .holdInDeassertLine n => Sys2Proof.Machine.execHoldInDeassertLine n s
  | .holdRequest a => Sys2Proof.Machine.execHoldRequest a s
  | .listFreeze a => Sys2Proof.Machine.execListFreeze a s
  | .listUnfreeze a => Sys2Proof.Machine.execListUnfreeze a s
  | .listCountEvent a => Sys2Proof.Machine.execListCountEvent a s
  | .lineFireAction n => Sys2Proof.Machine.execLineFireAction n s
  | .pulseEndCount n => Sys2Proof.Machine.execPulseEndCount n s
  | .pulseEndTick n => Sys2Proof.Machine.execPulseEndTick n s
  | .lineAxisStop n => Sys2Proof.Machine.execLineAxisStop n s
  | .lineAxisHeld n => Sys2Proof.Machine.execLineAxisHeld n s
  | .lineAxisResumed n => Sys2Proof.Machine.execLineAxisResumed n s
  | .lineTripNotice n => Sys2Proof.Machine.execLineTripNotice n s
  | .lineReleaseNotice n => Sys2Proof.Machine.execLineReleaseNotice n s
  | .lineHostWrite p => Sys2Proof.Machine.execLineHostWrite p s
  | .captureEdge c level => Sys2Proof.Machine.execCaptureEdge c level s
  | .lockoutEnd c => Sys2Proof.Machine.execLockoutEnd c s
  | .channelAxisConfig c => Sys2Proof.Machine.execChannelAxisConfig c s
  | .checkEvent fb => Sys2Proof.Machine.execCheckEvent fb s
  | .allocation p => Sys2Proof.Machine.execAllocation p s
  | .insertion p => Sys2Proof.Machine.execInsertion p s
  | .activationInsertion a which => Sys2Proof.Machine.execActivationInsertion a which s
  | .append p => Sys2Proof.Machine.execAppend p s
  | .listCancel a p => Sys2Proof.Machine.execListCancel a p s
  | .channelCancel c p => Sys2Proof.Machine.execChannelCancel c p s
  | .listCancelAxis a => Sys2Proof.Machine.execListCancelAxis a s
  | .channelCancelAxis c => Sys2Proof.Machine.execChannelCancelAxis c s
  | .listDiscardPair a => Sys2Proof.Machine.execListDiscardPair a s
  | .channelDiscardPair c => Sys2Proof.Machine.execChannelDiscardPair c s
  | .removalAnswer p => Sys2Proof.Machine.execRemovalAnswer p s
  | .fetchGrant => Sys2Proof.Machine.execFetchGrant s
  | .fetchBusError => Sys2Proof.Machine.execFetchBusError s
  | .badKind r => Sys2Proof.Machine.execBadKind r s
  | .nop r => Sys2Proof.Machine.execNop r s
  | .arm r => Sys2Proof.Machine.execArm r s
  | .armDeferred r => Sys2Proof.Machine.execArmDeferred r s
  | .cancel r => Sys2Proof.Machine.execCancel r s
  | .lineWrite r => Sys2Proof.Machine.execLineWrite r s
  | .barrier r => Sys2Proof.Machine.execBarrier r s
  | .barrierReleaseNotice p => Sys2Proof.Machine.execBarrierReleaseNotice p s
  | .barrierTimeout p => Sys2Proof.Machine.execBarrierTimeout p s
  | .createPair r => Sys2Proof.Machine.execCreatePair r s
  | .deletePair r => Sys2Proof.Machine.execDeletePair r s
  | .drainEnd => Sys2Proof.Machine.execDrainEnd s
  | .discardComplete => Sys2Proof.Machine.execDiscardComplete s
  | .setNoticeRing r => Sys2Proof.Machine.execSetNoticeRing r s
  | .axisConfig r => Sys2Proof.Machine.execAxisConfig r s
  | .axisStart r => Sys2Proof.Machine.execAxisStart r s
  | .axisStop r => Sys2Proof.Machine.execAxisStop r s
  | .axisHalt r => Sys2Proof.Machine.execAxisHalt r s
  | .axisResume r => Sys2Proof.Machine.execAxisResume r s
  | .axisSetPosition r => Sys2Proof.Machine.execAxisSetPosition r s
  | .axisHome r => Sys2Proof.Machine.execAxisHome r s
  | .lineConfig r => Sys2Proof.Machine.execLineConfig r s
  | .captureConfig r => Sys2Proof.Machine.execCaptureConfig r s
  | .monitorConfig r => Sys2Proof.Machine.execMonitorConfig r s
  | .monitorRelease r => Sys2Proof.Machine.execMonitorRelease r s
  | .monitorGlobal r => Sys2Proof.Machine.execMonitorGlobal r s
  | .query r fb => Sys2Proof.Machine.execQuery r fb s
  | .queryWriteDone success => Sys2Proof.Machine.execQueryWriteDone success s
  | .cancelAxis r => Sys2Proof.Machine.execCancelAxis r s
  | .postCompletion p => Sys2Proof.Machine.execPostCompletion p s
  | .postNotice => Sys2Proof.Machine.execPostNotice s
  | .writeIssue => Sys2Proof.Machine.execWriteIssue s
  | .recordWriteDone => Sys2Proof.Machine.execRecordWriteDone s
  | .recordWriteError => Sys2Proof.Machine.execRecordWriteError s
  | .statusBlockWriteDone => Sys2Proof.Machine.execStatusBlockWriteDone s
  | .statusBlockWriteError => Sys2Proof.Machine.execStatusBlockWriteError s
  | .prescalerAdvance a => Sys2Proof.Machine.execPrescalerAdvance a s
  | .decoderReferenceUpdate a chA chB => Sys2Proof.Machine.execDecoderReferenceUpdate a chA chB s
  | .inputReferenceUpdate input level => Sys2Proof.Machine.execInputReferenceUpdate input level s
  | .fetchReadDiscarded => Sys2Proof.Machine.execFetchReadDiscarded s

end Sys2Proof.Machine
end

