-- ==== Sys2Proof/Safety.lean ====
section
/-! DEFINITION. The terms in which claims about the C416 are stated: what a record leaves at the Ring Engine, and the invariants of
the machine. -/

namespace Sys2Proof

/-- A command that resets the part, if READY is 1: a write of CONTROL by its offset with SOFT_RESET 1 is one (R143). -/
def Instr.isReset : Instr → Bool
  | .fullReset _ => true
  | .softReset _ => true
  | .registerWrite offset value => offset == 0x010 && value.getLsbD 1
  | _ => false

/-- A command that is a write to the register window (R142, R143). -/
def Instr.isWindowWrite : Instr → Bool
  | .softReset _ => true
  | .enableWrite _ => true
  | .statusBlockBaseWrite _ _ => true
  | .adminSqBaseWrite _ _ => true
  | .adminCqBaseWrite _ _ => true
  | .adminSizesWrite _ => true
  | .sqPostWrite _ _ => true
  | .cqDoneWrite _ _ => true
  | .nqDoneWrite _ => true
  | .irqMaskWrite _ => true
  | .registerWrite _ _ => true
  | _ => false

end Sys2Proof

namespace Sys2Proof.Machine

/-! ## What a record leaves at the Ring Engine -/

/-- The SQ head of a pair after one more record (R155). -/
def State.nextHead (s : State) (p : PairId) : Nat := ((s.pair p).sqHead + 1) % (s.pair p).sqSize

/-- The state after a record of pair `p` has answered the read and gone to a phase (R155): the engine is free, the SQ head has
advanced, a status block write of it is queued, and the record is in progress. Nothing else has changed. -/
def State.recordTaken (s : State) (p : PairId) (r : Record) (ph : Phase) : State :=
  { s with
    engine := none
    pairs := s.pairs.set p { s.pair p with sqHead := s.nextHead p }
    procs := s.procs.set p (.busy (r.byte 0) r.cookie ph)
    writeQ := s.writeQ ++ [.head p (s.nextHead p)] }

/-- The state after a record of pair `p` has answered the read and handed its ack at once (R155, R172). -/
def State.recordAnswered (s : State) (p : PairId) (r : Record) (st : Status) (detail stamp : Nat) : State :=
  { s.recordTaken p r .acked with
    cqReq := s.cqReq.set p (s.requests p ++ [.ack ⟨r.byte 0, r.cookie, st, detail, stamp⟩]) }

/-- The state after the record in progress at pair `p`, of this kind code and cookie, has handed its ack (R172). -/
def State.withAck (s : State) (p : PairId) (kind : Byte) (cookie : W32) (st : Status) (detail stamp : Nat) : State :=
  { s with
    procs := s.procs.set p (.busy kind cookie .acked)
    cqReq := s.cqReq.set p (s.requests p ++ [.ack ⟨kind, cookie, st, detail, stamp⟩]) }

/-- A record of this kind answers the outstanding read for pair `p` and passes the checks of steps 1 to 3 (R170). -/
def State.Takes (s : State) (r : Record) (k : Kind) (p : PairId) : Prop :=
  s.fetchedFor r k = some p ∧ badField k r = none

/-! ## What released entries leave (R45, R107, R151) -/

/-- The record processor of pair `p` once these entries have been released at this stamp: a BARRIER in progress has a release notice
of each entry of its pair (R45), and a DELETE_PAIR that discards has the stamp at which the live count of its pair, among the live
counts before the releases, reached 0 (R183). -/
def Proc.told (x : Proc) (p : PairId) (live : Vector Nat 9) (ts : Nat) (es : List Entry) : Proc :=
  match x with
  | .busy k c (.waiting b) =>
    .busy k c (.waiting { b with notices := b.notices ++ (es.filter fun e => e.owner == p).map fun e => (e.group, ts) })
  | .busy k c (.discarding q r none) =>
    let n := es.countP fun e => e.owner == q
    if p = 0 ∧ 0 < n ∧ live[q] ≤ n then .busy k c (.discarding q r (some ts)) else x
  | _ => x

/-- The state after these entries have been released (R45): each is FREE, and is counted no more in the live count of its pair and the
reference count of its line. -/
def State.afterReleases (s : State) (es : List Entry) : State :=
  { s with
    pool := ⟨s.pool.free + es.length, s.pool.quota, Vector.ofFn fun p => s.pool.live[p] - es.countP fun e => e.owner == p⟩
    lines := Vector.ofFn fun n => { s.line n with refCount := (s.line n).refCount - es.countP fun e => e.line == n }
    procs := Vector.ofFn fun p => (s.proc p).told p s.pool.live s.ts es }

/-- The state after a compare list has retired these entries: they are released, and each of their lines has taken the fire actions
sent to it before (R107). -/
def State.afterRetirements (s : State) (es : List Entry) : State :=
  { s.afterReleases es with
    lines := Vector.ofFn fun n =>
      let k := es.countP fun e => e.line == n
      if k = 0 then s.line n else { (s.line n).actAll with refCount := (s.line n).refCount - k } }

/-! ## What is taken before a tick (R3, R5) -/

/-- Nothing waits that is taken before the next tick (log 40): no tick at a counting TIMEBASE axis (R18), no count event at a compare list
(R19), and no deadline that a tick has reached, of a pulse (R112), of a BARRIER (R180) or of the check (R124). -/
def State.NothingDue (s : State) : Prop :=
  (∀ a, (s.axis a).prescales = true → (s.axis a).tick = false) ∧
  (∀ a k, ListMsg.count k ∉ (s.clist a).inbox) ∧
  (∀ n e t, (s.line n).state = .pulsing e → e.tick = some t → t ≤ s.ts → (s.line n).tick = false) ∧
  (∀ p kd ck b, s.proc p = .busy kd ck (.waiting b) → b.expired = false) ∧
  (s.monitor.enable = true → s.monitor.deadline ≠ none → s.monitor.expired = false)

/-! ## The bytes the part writes (R189, R194, R197) -/

/-- The fields of a record, each with its offset, its size in bytes and its value. -/
abbrev Layout := List (Nat × Nat × Int)

/-- The value of the `n` bytes from an offset on, least significant first (R189). -/
def field (data : List Byte) (offset n : Nat) : Nat :=
  ((data.drop offset).take n).foldr (fun b v => b.toNat + 2 ^ 8 * v) 0

/-- These bytes are this many and show these fields: a field lies within them and holds its value, in two's complement, little-endian,
and every byte outside the fields is 0 (R189, R194, R197). -/
def Shows (data : List Byte) (size : Nat) (fields : Layout) : Prop :=
  data.length = size ∧ (∀ f ∈ fields, f.1 + f.2.1 ≤ size ∧ (field data f.1 f.2.1 : Int) = f.2.2 % 2 ^ (8 * f.2.1)) ∧
    ∀ i, i < size → (∀ f ∈ fields, i < f.1 ∨ f.1 + f.2.1 ≤ i) → data[i]? = some 0

/-- The fields of a completion record with its lost_before (R194). -/
def CqRequest.fields (q : CqRequest) (lost : Nat) : Layout :=
  match q with
  | .ack k => [(0, 1, 0x80), (1, 1, k.kind.toNat), (2, 2, lost), (4, 4, k.cookie.toNat), (8, 2, k.status.code), (12, 4, k.detail),
      (24, 8, k.stamp)]
  | .fire f => [(0, 1, 0x81), (1, 1, f.axis), (2, 2, lost), (4, 4, f.tag.toNat), (8, 4, f.pos), (12, 2, f.occurrence),
      (14, 1, f.dir.code), (15, 1, f.final.toNat), (16, 8, f.serial), (24, 8, f.stamp)]
  | .retire r => [(0, 1, 0x82), (1, 1, r.axis), (2, 2, lost), (4, 4, r.tag.toNat), (8, 4, r.pos), (12, 2, r.occurrence),
      (14, 1, r.reason.code), (16, 8, r.serial), (24, 8, r.stamp)]

/-- The fields of a notice with its lost_before (R194). -/
def Notice.fields (n : Notice) (lost : Nat) : Layout :=
  let slot (code : Int) (m : SlotId) (g : SlotConfig) (value run stamp : Nat) : Layout :=
    [(0, 1, code), (1, 1, m), (2, 2, lost), (4, 4, value), (8, 1, g.kind.code), (9, 1, g.severity.code), (10, 1, g.kind.subject),
      (11, 1, run), (24, 8, stamp)]
  match n with
  | .capture c pos activated held unclaimed serial stamp =>
    [(0, 1, 0xC0), (1, 1, c), (2, 2, lost), (4, 4, pos), (8, 1, activated), (9, 1, held.toNat + 2 * unclaimed.toNat),
      (16, 8, serial), (24, 8, stamp)]
  | .homeDone a before after serial stamp =>
    [(0, 1, 0xC1), (1, 1, a), (2, 2, lost), (4, 4, before), (8, 4, after), (16, 8, serial), (24, 8, stamp)]
  | .indexCorrected a before after serial stamp =>
    [(0, 1, 0xC2), (1, 1, a), (2, 2, lost), (4, 4, before), (8, 4, after), (16, 8, serial), (24, 8, stamp)]
  | .axisHeld a pos cause set target stamp =>
    [(0, 1, 0xC3), (1, 1, a), (2, 2, lost), (4, 4, pos), (8, 1, cause.code), (9, 1, set.code), (10, 1, target.code), (24, 8, stamp)]
  | .monitorTripped m g value run stamp => slot 0xC4 m g value run stamp
  | .monitorRecovered m g value run stamp => slot 0xC5 m g value run stamp

/-- The fields of the AXIS snapshot (R35, R197). An unconfigured axis shows no configuration. -/
def Axis.fields (x : Axis) : Layout :=
  let target : Nat := match x.state with
    | .held t => t.code
    | _ => 0
  let dir : Nat := match x.lastDir with
    | some d => d.code
    | none => 0
  let config : Layout := match x.config with
    | none => []
    | some g => [(36, 4, g.preset), (40, 4, g.spacing), (44, 2, g.tolerance), (46, 2, g.lateWindow), (48, 1, g.indexMode.code),
        (49, 1, g.indexDir.code)]
  let source : Layout := match x.config.map AxisConfig.source with
    | none => []
    | some (.quad decode invert) => [(5, 1, 0), (6, 1, decode.code), (51, 1, invert.toNat)]
    | some (.stepdir invert) => [(5, 1, 1), (51, 1, invert.toNat)]
    | some (.timebase prescale dir) => [(5, 1, 2), (32, 4, prescale), (50, 1, dir.code)]
  let kind : Layout := match x.config.map AxisConfig.kind with
    | none => []
    | some .linear => [(7, 1, 0)]
    | some (.rotary m) => [(7, 1, 1), (12, 4, m)]
  let own : Layout := [(0, 1, x.state.code), (1, 1, target), (2, 1, x.causes.code), (3, 1, dir),
    (4, 1, x.homePending.toNat + 2 * x.spacingError.toNat + 4 * x.prevIndex.toNat + 8 * x.holdIn.toNat), (8, 4, x.position),
    (16, 8, x.serial), (24, 4, x.moved), (28, 4, x.illegal), (52, 4, x.prescaler), (56, 8, x.net)]
  own ++ config ++ source ++ kind

/-- The fields of the LINE snapshot with the level of FBn at it (R120, R197). A DISABLED line shows no configuration. FBn shows as it
is where no feedback polarity is stored (log 19), and a DISABLED line shows its driven level inactive (log 41). -/
def Line.fields (l : Line) (fb : Bool) : Layout :=
  let ends : PulseEnds := match l.state with
    | .pulsing e => e
    | _ => ⟨none, none⟩
  let flags (level : Bool) : Int := l.driven.toNat + 2 * level.toNat + 4 * l.holdIn.toNat + 8 * l.axisHeld.toNat +
    16 * ends.serial.isSome.toNat + 32 * ends.tick.isSome.toNat
  let drive (d : Drive) : Layout :=
    (3, 1, d.polarity.code) :: (4, 1, d.safe.toNat) :: (5, 1, d.retrigger.code) ::
    match d.feedback with
    | none => [(8, 1, flags fb)]
    | some .normal => [(6, 1, 1), (8, 1, flags fb)]
    | some .inverted => [(6, 1, 1), (7, 1, 1), (8, 1, flags !fb)]
  let config : Layout := match l.config with
    | .disabled => [(0, 1, 0), (8, 1, flags fb)]
    | .host d => (0, 1, 1) :: drive d
    | .compare a d => (0, 1, 2) :: (2, 1, a) :: drive d
  let own : Layout := [(1, 1, l.state.code), (9, 1, l.tripCount), (10, 2, l.refCount), (12, 4, l.suppressed),
    (16, 8, ends.serial.getD 0), (24, 8, ends.tick.getD 0)]
  own ++ config

/-- The fields of the CAPTURE snapshot (R101, R197). An OFF channel shows no configuration. -/
def Channel.fields (c : Channel) : Layout :=
  let shown (window report : Bool) : Int :=
    window.toNat + 2 * report.toNat + 4 * c.last.isSome.toNat + 8 * c.openBatch.isSome.toNat
  let lockoutEnd : Nat := match c.state with
    | .lockout e => e
    | _ => 0
  let own : Layout := [(0, 1, c.state.code), (7, 1, c.closed.length), (24, 4, c.rejected), (28, 4, c.unclaimed), (32, 8, lockoutEnd)]
  let config : Layout := match c.config with
    | none => [(4, 1, shown false false)]
    | some g => [(1, 1, g.input), (2, 1, g.edge.code), (3, 1, g.axis), (4, 1, shown g.window.isSome g.report), (16, 4, g.lockout)]
  let window : Layout := match c.config.bind ChanConfig.window with
    | none => []
    | some (lo, hi) => [(8, 4, lo), (12, 4, hi)]
  let opened : Layout := match c.openBatch with
    | none => []
    | some b => [(5, 1, b.owner), (6, 1, b.entries.length)]
  let oldest : Layout := match c.closed with
    | [] => []
    | b :: _ => [(20, 1, b.owner), (21, 1, b.entries.length)]
  let last : Layout := match c.last with
    | none => []
    | some x => [(40, 4, x.pos), (48, 8, x.serial), (56, 8, x.stamp)]
  own ++ config ++ window ++ opened ++ oldest ++ last

/-- The fields of the MONITOR snapshot of a slot, with the global setting (R140, R197). An OFF slot shows no configuration. -/
def Slot.fields (m : Slot) (g : Monitor) : Layout :=
  let flags (held verdict : Bool) : Int := m.opening.toNat + 2 * held.toNat + 4 * verdict.toNat + 8 * g.enable.toNat
  let own : Layout := [(0, 1, m.state.code), (6, 1, m.presentRun), (7, 1, m.absentRun), (10, 2, g.period), (24, 8, g.deadline.getD 0)]
  let last : Layout := match m.last with
    | none => [(8, 1, flags false false)]
    | some x => [(8, 1, flags true x.present), (12, 4, x.value)]
  let config : Layout := match m.config with
    | none => []
    | some c => [(1, 1, c.kind.code), (2, 1, c.kind.subject), (3, 1, c.qualify), (5, 1, c.severity.code)]
  let recover : Layout := match m.config.map SlotConfig.severity with
    | some (.warn r) => [(4, 1, r)]
    | _ => []
  let threshold : Layout := match m.config.map SlotConfig.kind with
    | some (.overspeed _ z) => [(16, 4, z)]
    | some (.quadError _ z) => [(16, 4, z)]
    | _ => []
  own ++ last ++ config ++ recover ++ threshold

/-- The fields of the PAIR snapshot of a pair (R167, R197): pair 0 shows ACTIVE or ERROR by FAULT (R148), and the discard flag is that
of the DELETE_PAIR in progress. -/
def State.pairFields (s : State) (p : PairId) : Layout :=
  let q := s.pair p
  let state : PairState := if p ≠ 0 then q.state else if s.fault = none then .active else .error
  let discard : Bool := match s.proc 0 with
    | .busy _ _ (.draining r d) => decide (r = p) && d
    | .busy _ _ (.discarding r _ _) => decide (r = p)
    | _ => false
  let grant : Bool := match s.engine with
    | some e => decide (e.pair = p)
    | none => false
  let cause : Nat := match q.cause with
    | some c => c.code
    | none => 0
  [(0, 1, state.code), (1, 1, cause),
    (2, 1, discard.toNat + 2 * grant.toNat + 4 * (decide (s.proc p ≠ .idle)).toNat), (3, 1, q.reserved.toNat), (4, 2, q.sqSize),
    (6, 2, q.cqSize), (8, 8, q.sqBase.toNat), (16, 8, q.cqBase.toNat), (24, 2, q.sqHead), (26, 2, q.sqPost), (28, 2, q.cqWrite),
    (30, 2, q.cqPub), (32, 2, q.cqDone), (36, 4, q.pendLost), (40, 4, q.totLost)]

/-- The fields of the PAIR snapshot at index 9, the notice ring's (R167, R197). -/
def NoticeRing.fields (q : NoticeRing) : Layout :=
  [(0, 1, q.state.code), (6, 2, q.size), (16, 8, q.base.toNat), (28, 2, q.write), (30, 2, q.pub), (32, 2, q.done), (36, 4, q.pendLost),
    (40, 4, q.totLost)]

/-- The fields of the POOL snapshot (R53, R197). -/
def State.poolFields (s : State) : Layout :=
  let entries : Layout :=
    [(0, 2, s.pool.free), (2, 2, s.pendingEntries.length), (4, 2, s.waitingEntries.length), (6, 2, s.armedEntries.length)]
  let pair (p : PairId) : Layout :=
    [(8 + 6 * (p.val - 1), 1, if (s.pair p).state = .absent then 0 else 1), (10 + 6 * (p.val - 1), 2, s.pool.quota[p]),
      (12 + 6 * (p.val - 1), 2, s.pool.live[p])]
  entries ++ ([1, 2, 3, 4, 5, 6, 7, 8] : List PairId).flatMap pair

/-- The fields of the snapshot of an object (R197). -/
def State.fieldsOf (s : State) (q : QueryOf) : Layout :=
  match q with
  | .axis a => (s.axis a).fields
  | .line n => (s.line n).fields s.pins.fb[n]
  | .capture c => (s.chan c).fields
  | .monitor m => (s.slot m).fields s.monitor
  | .pair p => s.pairFields p
  | .notices => s.nq.fields
  | .pool => s.poolFields

/-! ## Reset values -/

/-- An Axis Unit at its reset values (R36), with the levels of HOLD_IN, A and B present at the reset. -/
def Axis.AtReset (x : Axis) (holdIn chA chB : Bool) : Prop :=
  x.config = none ∧ x.state = .unconfigured ∧ x.causes = noCauses ∧ x.position = 0 ∧ x.lastDir = none ∧ x.serial = 0 ∧
    x.prescaler = 0 ∧ x.homePending = false ∧ x.prevIndex = false ∧ x.net = 0 ∧ x.spacingError = false ∧ x.moved = 0 ∧
    x.illegal = 0 ∧ x.holdIn = holdIn ∧ x.refA = chA ∧ x.refB = chB ∧ x.tick = false ∧ x.holdReqs = []

/-- A compare list at its reset values (R82). -/
def CList.AtReset (l : CList) : Prop :=
  l.entries = [] ∧ l.frozen = false ∧ l.nextArm = 0 ∧ l.discarding = [] ∧ l.activations = [] ∧ l.inbox = []

/-- A capture channel at its reset values (R102), with the level of its input present at the reset. -/
def Channel.AtReset (x : Channel) (level : Bool) : Prop :=
  x.config = none ∧ x.state = .off ∧ x.ref = level ∧ x.rejected = 0 ∧ x.unclaimed = 0 ∧ x.last = none ∧ x.openBatch = none ∧
    x.closed = [] ∧ x.inbox = []

/-- An output line at its reset values (R121), with the level of HOLD_IN present at the reset. -/
def Line.AtReset (l : Line) (holdIn : Bool) : Prop :=
  l.config = .disabled ∧ l.state = .undriven ∧ l.refCount = 0 ∧ l.suppressed = 0 ∧ l.holdIn = holdIn ∧ l.axisHeld = false ∧
    l.tripCount = 0 ∧ l.fromAxis = [] ∧ l.fromList = [] ∧ l.fromMonitor = []

/-- A slot at its reset values (R141). -/
def Slot.AtReset (m : Slot) : Prop :=
  m.config = none ∧ m.state = .off ∧ m.presentRun = 0 ∧ m.absentRun = 0 ∧ m.last = none ∧ m.opening = false

/-- A pair with every index and count 0 (R166). -/
def Pair.Zero (q : Pair) : Prop :=
  q.cause = none ∧ q.sqBase = 0 ∧ q.cqBase = 0 ∧ q.sqHead = 0 ∧ q.sqPost = 0 ∧ q.cqWrite = 0 ∧ q.cqPub = 0 ∧ q.cqDone = 0 ∧
    q.reserved = false ∧ q.pendLost = 0 ∧ q.totLost = 0

/-- Every block at its reset values (R36, R54, R82, R102, R121, R141, R166, R168), with the pin levels present at the reset. -/
def State.AtResetValues (s : State) (pins : Pins) : Prop :=
  (∀ a, (s.axis a).AtReset pins.holdIn pins.encA[a] pins.encB[a]) ∧ (∀ a, (s.clist a).AtReset) ∧
  (s.pool.free = 2048 ∧ ∀ p : PairId, s.pool.quota[p] = 0 ∧ s.pool.live[p] = 0) ∧
  (∀ c, (s.chan c).AtReset pins.cin[c]) ∧ (∀ n, (s.line n).AtReset pins.holdIn) ∧
  (s.monitor.enable = false ∧ s.monitor.period = 10 ∧ s.monitor.deadline = none) ∧ (∀ m, (s.slot m).AtReset) ∧
  (s.enable = false ∧ s.fault = none ∧ s.sbBase = 0 ∧ s.irqMask = 0 ∧ s.irqPending = 0 ∧ s.irqAsserted = false) ∧
  (∀ p, (s.pair p).Zero) ∧ ((s.pair 0).sqSize = 16 ∧ (s.pair 0).cqSize = 16 ∧ ∀ p, p ≠ 0 → (s.pair p).state = .absent) ∧
  s.nq = ⟨.unset, 0, 0, 0, 0, 0, 0, 0⟩ ∧ (s.engine = none ∧ s.lastServed = 8) ∧ (∀ p, s.proc p = .idle) ∧
  ((∀ p, s.requests p = []) ∧ s.nqReq = [] ∧ s.writeQ = [] ∧ s.onBus = none)

/-! ## Invariants of the machine side -/

/-- A position within the range of an axis kind (R20, R21). -/
def AxisKind.holds (k : AxisKind) (p : Int) : Prop :=
  match k with
  | .linear => -(2 ^ 31) ≤ p ∧ p ≤ 2 ^ 31 - 1
  | .rotary m => 0 ≤ p ∧ p < m

/-- The position and the preset of every configured axis lie in its range (R10, R20, R21). -/
def State.PositionsInRange (s : State) : Prop :=
  ∀ a g, (s.axis a).config = some g → g.kind.holds (s.axis a).position ∧ g.kind.holds g.preset

/-- An axis has a hold cause exactly while it is HELD (R22). -/
def State.CausesMatchHold (s : State) : Prop := ∀ a, (s.axis a).isHeld = true ↔ (s.axis a).causes ≠ noCauses

/-- Two armed entries in the list's order (R55): ascending position, and ascending arm order at one position. -/
def Armed.inOrder (x y : Armed) : Prop := x.pos < y.pos ∨ (x.pos = y.pos ∧ x.order ≤ y.order)

/-- Every list is in its order and holds at most eight entries at one position (R55, R56). -/
def State.ListsInOrder (s : State) : Prop :=
  ∀ a, (s.clist a).entries.Pairwise Armed.inOrder ∧ ∀ pos, (s.clist a).countAt pos ≤ 8

/-- A TRIPPED slot of severity LATCH, with its configuration (R132). -/
def State.Latched (s : State) (m : SlotId) (g : SlotConfig) : Prop :=
  (s.slot m).config = some g ∧ g.severity = .latch ∧ (s.slot m).state = .tripped

/-! ## Invariants of the records (R150 to R156, R168) -/

/-- The pair that a DELETE_PAIR in progress drains or discards. -/
def Proc.deleting (x : Proc) : Option PairId :=
  match x.phase with
  | some (.draining p _) => some p
  | some (.discarding p _ _) => some p
  | _ => none

/-- The pair that a DELETE_PAIR in progress discards, its drain being over. -/
def Proc.drained (x : Proc) : Option PairId :=
  match x.phase with
  | some (.discarding p _ _) => some p
  | _ => none

/-- A request that is an ack. -/
def CqRequest.isAck : CqRequest → Bool
  | .ack _ => true
  | _ => false

/-- The number of acks that a record in progress has handed to the posting unit. -/
def Proc.acksHanded (x : Proc) : Nat := if x.phase = some .acked then 1 else 0

/-- One record at a time (R153 to R156, R168): a pair with a grant has no record in progress; a pair with either holds its
reservation; the one ack handed and not yet taken is that of the record in progress; a pair that is ABSENT has neither; and a pair
that a DELETE_PAIR deletes is DRAINING, with neither once it is discarding. -/
def State.OneRecord (s : State) : Prop :=
  (∀ p, s.granted p = true → s.proc p = .idle) ∧
  (∀ p, s.granted p = true ∨ s.inProgress p = true → (s.pair p).reserved = true) ∧
  (∀ p, (s.requests p).countP CqRequest.isAck = (s.proc p).acksHanded) ∧
  (∀ p, (s.pair p).state = .absent → s.granted p = false ∧ s.proc p = .idle) ∧
  (∀ p, (s.proc 0).deleting = some p → p ≠ 0 ∧ (s.pair p).state = .draining) ∧
  (∀ p, (s.proc 0).drained = some p → s.granted p = false ∧ s.proc p = .idle) ∧
  (s.pair 0).state = .active

/-! ## Invariants of the entries (R40, R47, R48, R94) -/

/-- The entry of a record in progress: the one it asks for or holds (R174, R176). -/
def Proc.entry (x : Proc) : List Entry :=
  match x.phase with
  | some (.allocateArm e _) => [e]
  | some (.allocateDeferred w _ _) => [w.entry]
  | _ => x.held

/-- The entries are accounted for: FREE and live entries add up to 2048 (R40); each pair's live count is the number of its live
entries and never exceeds its quota (R47); each line's reference count is the number of live entries that name it (R48); a record
holds entries of its own pair, and a batch those of its owner pair (R94); an ABSENT pair has no quota; and a line to which a fire action
is on its way is named by an armed entry, for the line takes the actions of an entry before its release (R107). -/
def State.EntriesCounted (s : State) : Prop :=
  s.pool.free + s.liveEntries.length = 2048 ∧
  (∀ p : PairId, s.pool.live[p] = s.liveEntries.countP fun e => e.owner == p) ∧
  (∀ p : PairId, s.pool.live[p] ≤ s.pool.quota[p]) ∧
  (∀ n, (s.line n).refCount = s.liveEntries.countP fun e => e.line == n) ∧
  (∀ p, ∀ e ∈ (s.proc p).entry, e.owner = p) ∧
  (∀ c, ∀ b ∈ (s.chan c).batches, ∀ w ∈ b.entries, w.entry.owner = b.owner) ∧
  (∀ p : PairId, (s.pair p).state = .absent → s.pool.quota[p] = 0) ∧
  (∀ n, (s.line n).fromList ≠ [] → ∃ e ∈ s.armedEntries, e.line = n)

/-! ## Invariants of the rings (R145, R146) -/

/-- How far an index lies ahead of a done index, going round a ring of this size (R145). -/
def ahead (size done v : Nat) : Nat := (v + size - done) % size

/-- The tail values that writes of a ring carry, in the order in which the bus will answer them: those of tail writes that publish, and
those that follow the records. -/
def tailValues (ring : RingId) (ws : List QueuedWrite) : List Nat × List Nat :=
  (ws.filterMap fun w => match w with
    | .tail r v true => if r = ring then some v else none
    | _ => none,
   ws.filterMap fun w => match w with
    | .record r _ next _ => if r = ring then some next else none
    | _ => none)

/-- The writes of a ring that are on their way and will move its published tail: the one on the bus, unless its ring is gone, and the
accepted ones. -/
def State.onTheWay (s : State) (ring : RingId) : List Nat :=
  let bus := match s.onBus with
    | some b => if b.stale then [] else [b.write]
    | none => []
  let (tails, records) := tailValues ring (bus ++ s.writeQ)
  tails ++ records

/-- The indices of a ring of the part: each within the ring, and, going round from the done index, first the published tail, then the
tails on their way in order, and last the write tail (R146). -/
def RingIndices (size done pub write : Nat) (way : List Nat) : Prop :=
  done < size ∧ pub < size ∧ write < size ∧ (∀ v ∈ way, v < size) ∧
    ((pub :: way) ++ [write]).Pairwise fun v w => ahead size done v ≤ ahead size done w

/-- The rings that the part writes (R146): the indices of every pair's completion ring and of the notice ring stand in their order,
the records not yet consumed and the reserved slot never exceed size − 1, and a ring that is not there has no write on its way and, but
for the error cause that an ABSENT pair keeps (R148), nothing in it. -/
def State.RingsInOrder (s : State) : Prop :=
  (∀ p, (s.pair p).state ≠ .absent →
    RingIndices (s.pair p).cqSize (s.pair p).cqDone (s.pair p).cqPub (s.pair p).cqWrite (s.onTheWay (.cq p)) ∧
      (s.pair p).unconsumed + (s.pair p).reservedSlots ≤ (s.pair p).cqSize - 1) ∧
  (∀ p, (s.pair p).state = .absent → s.pair p = { absentPair with cause := (s.pair p).cause } ∧ s.onTheWay (.cq p) = []) ∧
  (s.nq.state ≠ .unset → RingIndices s.nq.size s.nq.done s.nq.pub s.nq.write (s.onTheWay .nq)) ∧
  (s.nq.state = .unset → s.nq = blankRing ∧ s.onTheWay .nq = [])

end Sys2Proof.Machine
end

