-- ==== Sys2Proof/Certificates/Slice0/Obligations.lean ====
section
/-! DEFINITION. The statements for the provers. Each is cited to the rules of spec/ in OBLIGATIONS.json. A statement that a command
answers a next state gives that state whole: what a record update does not name is unchanged, which is the command's frame. -/

open Sys2Proof Sys2Proof.Machine

/-! ## The queue and the Timebase -/

/-- A step runs the command at the front of the queue, on the state with the queue's rest; on an empty queue the block idles.
Model's choices: log 2. -/
def Obligations.StepRunsTheFrontCommand : Prop :=
  (∀ (c : Instr) (rest : List Instr) (s : State), s.pending = c :: rest → step s = exec c { s with pending := rest }) ∧
  (∀ s : State, s.pending = [] → step s = .next s)

/-- No command changes the queue of waiting commands. Model's choices: logs 1, 2 and 25. -/
def Obligations.CommandsLeaveTheQueueAlone : Prop :=
  ∀ (c : Instr) (s t : State), exec c s = .next t → t.pending = s.pending

/-- TICK: first every block takes what waits from the ticks before, by its own command: a TIMEBASE axis the tick offered to it,
a compare list its count events, a line, a BARRIER and the check, whose FB levels are those last presented, the expiry of a
deadline; then the timestamp rises by one and stays at 2^64-1, and the tick is offered to each owner of time-based state, so
that a deadline expires at the first tick at or past it. None is taken during a full reset. Model's choices: logs 5, 35, 40 and
42. -/
def Obligations.TickAdvancesTheTimestamp : Prop :=
  ∀ s : State,
    let run (u : State) (cs : List Instr) : State := cs.foldl (fun u c => match exec c u with
      | .next t => t
      | _ => u) u
    let prescaled := run s ((List.finRange 4).flatMap fun a => [.prescalerExpiry a, .prescalerAdvance a])
    let crossed := (List.finRange 4).foldl State.takeCounts prescaled
    let ended := run crossed ((List.finRange 16).map .pulseEndTick ++ (List.finRange 9).map .barrierTimeout)
    let u := run ended [.checkEvent s.pins.fb]
    let now := min (2 ^ 64 - 1) (s.ts + 1)
    let reached (deadline : Option Nat) : Bool := match deadline with
      | some d => decide (d ≤ now)
      | none => false
    (s.resetting ≠ some .full → exec .tick s = .next { u with
      ts := now
      resetTick := true
      axes := Vector.ofFn fun a => if (u.axis a).prescales = true then { u.axis a with tick := true } else u.axis a
      lines := Vector.ofFn fun n => match (u.line n).state with
        | .pulsing e => if e.tick ≠ none then { u.line n with tick := true } else u.line n
        | _ => u.line n
      procs := Vector.ofFn fun p => match u.proc p with
        | .busy k c (.waiting b) => .busy k c (.waiting { b with expired := b.expired || reached b.deadline })
        | x => x
      monitor := { u.monitor with expired := u.monitor.expired || reached u.monitor.deadline } }) ∧
    (s.resetting = some .full → exec .tick s = .next s) ∧
    u.NothingDue ∧ (s.NothingDue → u = s)

/-- The timestamp never decreases, except at a full reset, and never passes 2^64-1. -/
def Obligations.TimeNeverRunsBack : Prop :=
  ∀ (c : Instr) (s t : State), s.ts ≤ 2 ^ 64 - 1 → exec c s = .next t →
    t.ts ≤ 2 ^ 64 - 1 ∧ ((∀ pins, c ≠ .fullReset pins) → s.ts ≤ t.ts)

/-- FULL_RESET, SOFT_RESET and RESET_DONE, which ends a soft reset only after a tick taken since its start; and `State.reset`,
which holds the reset values with READY 1, RESET_CAUSE FULL and every pin low. That RESET_DONE with no reset in force changes
nothing is the model's (log 1). Model's choices: logs 1, 6, 7, 18, 25, 34 and 35. -/
def Obligations.ResetsClearThePart : Prop :=
  ∀ (pins : Pins) (s : State),
    (∃ t, exec (.fullReset pins) s = .next t ∧ t.AtResetValues pins ∧ t.ts = 0 ∧ t.resetting = some .full ∧
      t.resetCause = .full) ∧
    (s.resetting = none →
      ∃ t, exec (.softReset pins) s = .next t ∧ t.AtResetValues pins ∧ t.ts = s.ts ∧ t.resetting = some .soft ∧
        t.resetCause = .soft ∧ t.resetTick = false) ∧
    (s.resetting = some .full → exec .resetDone s = .next { s with resetting := none }) ∧
    (s.resetting = some .soft →
      exec .resetDone s = .next (if s.resetTick = true then { s with resetting := none } else s)) ∧
    (s.resetting = none → exec .resetDone s = .next s) ∧
    (State.reset.AtResetValues lowPins ∧ State.reset.ts = 0 ∧ State.reset.resetting = none ∧ State.reset.resetCause = .full ∧
      State.reset.pending = [])

/-! ## The register window -/

/-- ENABLE_WRITE and IRQ_MASK_WRITE; REGISTER_WRITE, which is the write of the register at its offset, and is ignored where no
register takes a write; while READY is 0 every write to the window is ignored; and what a read of the window returns, with READY
1 and with READY 0: each 8-byte place, the high half of a 32-bit register's being 0, and at an offset within a place its bytes
from there on. Model's choices: logs 20, 25, 27 and 39. -/
def Obligations.RegisterWritesTakeEffectWhenReady : Prop :=
  ∀ (s : State) (b : Bool) (m : W32) (o : BitVec 12) (v : W64),
    let low : W32 := v.truncate 32
    let place : BitVec 12 := o &&& 0xFF8
    let index (base : Nat) (p : PairId) : Prop := o.toNat = base + 8 * p.val
    let reads (at' : BitVec 12) (value : W64) : Prop := s.windowRead at' = value
    (s.resetting = none →
      exec (.enableWrite b) s = .next { s with enable := b } ∧
      exec (.irqMaskWrite m) s = .next { s with irqMask := m.truncate 11 } ∧
      (o = 0x010 → exec (.registerWrite o v) s =
        if v.getLsbD 1 = true then exec (.softReset s.pins) s else exec (.enableWrite (v.getLsbD 0)) s) ∧
      (o = 0x020 → exec (.registerWrite o v) s = exec (.statusBlockBaseWrite .whole v) s) ∧
      (o = 0x024 → exec (.registerWrite o v) s = exec (.statusBlockBaseWrite .high (v <<< 32)) s) ∧
      (o = 0x028 → exec (.registerWrite o v) s = exec (.adminSqBaseWrite .whole v) s) ∧
      (o = 0x02C → exec (.registerWrite o v) s = exec (.adminSqBaseWrite .high (v <<< 32)) s) ∧
      (o = 0x030 → exec (.registerWrite o v) s = exec (.adminCqBaseWrite .whole v) s) ∧
      (o = 0x034 → exec (.registerWrite o v) s = exec (.adminCqBaseWrite .high (v <<< 32)) s) ∧
      (o = 0x038 → exec (.registerWrite o v) s = exec (.adminSizesWrite low) s) ∧
      (o = 0x040 → exec (.registerWrite o v) s = exec (.irqMaskWrite low) s) ∧
      (∀ p, index 0x100 p → exec (.registerWrite o v) s = exec (.sqPostWrite p low) s) ∧
      (∀ p, index 0x200 p → exec (.registerWrite o v) s = exec (.cqDoneWrite p low) s) ∧
      (o = 0x280 → exec (.registerWrite o v) s = exec (.nqDoneWrite low) s)) ∧
    (o ∉ ([0x010, 0x020, 0x024, 0x028, 0x02C, 0x030, 0x034, 0x038, 0x040, 0x280] :
        List (BitVec 12)) →
      (∀ p, ¬index 0x100 p ∧ ¬index 0x200 p) → exec (.registerWrite o v) s = .next s) ∧
    (∀ c x, s.resetting = some x → c.isWindowWrite = true → exec c s = .next s) ∧
    ((s.windowRead 0x000).truncate 32 = (0xC4164B5A : W32) ∧ s.windowRead 0x000 >>> 40 = 0 ∧ reads 0x008 0x0800000818081004) ∧
    (s.resetting = none →
      reads 0x010 (if s.enable = true then 1 else 0) ∧
      reads 0x018 (BitVec.ofNat 64 (1 + (s.fault.elim 0 fun c => 2 + 2 ^ 8 * c.code) +
        if s.resetCause = .soft then 2 ^ 16 else 0)) ∧
      reads 0x020 s.sbBase ∧ reads 0x028 (s.pair 0).sqBase ∧ reads 0x030 (s.pair 0).cqBase ∧
      reads 0x038 (BitVec.ofNat 64 ((s.pair 0).sqSize + 2 ^ 16 * (s.pair 0).cqSize)) ∧
      reads 0x040 (s.irqMask.zeroExtend 64) ∧ reads 0x048 (s.irqPending.zeroExtend 64) ∧
      (∀ p, index 0x100 p → reads o (BitVec.ofNat 64 (s.pair p).sqPost)) ∧
      (∀ p, index 0x200 p → reads o (BitVec.ofNat 64 (s.pair p).cqDone)) ∧
      reads 0x280 (BitVec.ofNat 64 s.nq.done)) ∧
    (∀ x, s.resetting = some x →
      reads 0x018 (if s.resetCause = .soft then 2 ^ 16 else 0) ∧ reads 0x038 (16 + 2 ^ 16 * 16) ∧
      (place ∉ ([0x000, 0x008, 0x018, 0x038] : List (BitVec 12)) → reads o 0)) ∧
    (place ∉ ([0x000, 0x008, 0x010, 0x018, 0x020, 0x028, 0x030, 0x038, 0x040, 0x048, 0x280] : List (BitVec 12)) →
      (∀ p : PairId, place.toNat ≠ 0x100 + 8 * p.val ∧ place.toNat ≠ 0x200 + 8 * p.val) → reads o 0) ∧
    reads o (s.windowRead place >>> (8 * (o.toNat % 8)))

/-- STATUS_BLOCK_BASE_WRITE, ADMIN_SQ_BASE_WRITE, ADMIN_CQ_BASE_WRITE and ADMIN_SIZES_WRITE while the registers take writes;
while ENABLE is 1, or the admin pair has a grant outstanding or a record in progress, those writes are ignored, and so is one of
STATUS_BLOCK_BASE while a work pair is present or the notice ring is not UNSET. Model's choices: log 24. -/
def Obligations.AdminRegistersTakeWrites : Prop :=
  ∀ (s : State) (x : Access) (v : W64) (z : W32),
    let sq := z.toNat % 2 ^ 16
    let cq := z.toNat / 2 ^ 16
    let freshCq (t : State) : State :=
      { t with
        pairs := t.pairs.set 0
          { t.pair 0 with cqWrite := 0, cqPub := 0, cqDone := 0, reserved := false, pendLost := 0, totLost := 0 }
        writeQ := t.writeQ.filter fun w => !w.ofCq 0
        onBus := t.onBus.map fun w => w.staleFor 0 }
    (s.resetting = none → s.enable = false → s.granted 0 = false → s.proc 0 = .idle →
    ((∀ p : PairId, p ≠ 0 → (s.pair p).state = .absent) → s.nq.state = .unset →
      exec (.statusBlockBaseWrite x v) s = .next { s with sbBase := alignDown 8 (mergeAccess x s.sbBase v) }) ∧
    ((∃ p : PairId, p ≠ 0 ∧ (s.pair p).state ≠ .absent) ∨ s.nq.state ≠ .unset →
      exec (.statusBlockBaseWrite x v) s = .next s) ∧
    exec (.adminSqBaseWrite x v) s = .next { s with
      pairs := s.pairs.set 0
        { s.pair 0 with sqBase := alignDown 10 (mergeAccess x (s.pair 0).sqBase v), sqHead := 0, sqPost := 0 } } ∧
    exec (.adminCqBaseWrite x v) s = .next (freshCq { s with
      pairs := s.pairs.set 0 { s.pair 0 with cqBase := alignDown 9 (mergeAccess x (s.pair 0).cqBase v) } }) ∧
    (ringSize sq = true → ringSize cq = true → exec (.adminSizesWrite z) s = .next (freshCq { s with
      pairs := s.pairs.set 0 { s.pair 0 with sqSize := sq, cqSize := cq, sqHead := 0, sqPost := 0 } })) ∧
    (ringSize sq = false ∨ ringSize cq = false → exec (.adminSizesWrite z) s = .next s)) ∧
    (s.enable = true ∨ s.granted 0 = true ∨ s.proc 0 ≠ .idle →
      exec (.statusBlockBaseWrite x v) s = .next s ∧ exec (.adminSqBaseWrite x v) s = .next s ∧
      exec (.adminCqBaseWrite x v) s = .next s ∧ exec (.adminSizesWrite z) s = .next s)

/-- SQ_POST_WRITE, by the state of the pair and the value; CQ_DONE_WRITE and NQ_DONE_WRITE, by the span from the done index to
the published tail: a value outside it is not stored, and the notices that wait behind it are not written and are counted.
Model's choices: logs 11, 12 and 36. -/
def Obligations.HostIndexWrites : Prop :=
  ∀ (s : State) (p : PairId) (v : W32), s.resetting = none →
    (p ≠ 0 → (s.pair p).state = .active ∨ (s.pair p).state = .draining → (s.pair p).cause = none →
      exec (.sqPostWrite p v) s = .next (if v.toNat < (s.pair p).sqSize
        then { s with pairs := s.pairs.set p { s.pair p with sqPost := v.toNat } }
        else s.setCause p .postRange)) ∧
    (p ≠ 0 → (s.pair p).state = .error ∨ (s.pair p).state = .absent ∨ (s.pair p).cause ≠ none →
      exec (.sqPostWrite p v) s = .next s) ∧
    (v.toNat < (s.pair 0).sqSize →
      exec (.sqPostWrite 0 v) s = .next { s with pairs := s.pairs.set 0 { s.pair 0 with sqPost := v.toNat } }) ∧
    (¬v.toNat < (s.pair 0).sqSize → exec (.sqPostWrite 0 v) s = .next (s.setFault .postRange)) ∧
    let q := s.pair p
    let inside (size done pub : Nat) : Prop :=
      v.toNat < size ∧ ahead size done v.toNat ≤ ahead size done pub
    (q.state = .absent → exec (.cqDoneWrite p v) s = .next s) ∧
    (q.state ≠ .absent → inside q.cqSize q.cqDone q.cqPub →
      exec (.cqDoneWrite p v) s = .next { s with pairs := s.pairs.set p { q with cqDone := v.toNat } }) ∧
    (q.state ≠ .absent → ¬inside q.cqSize q.cqDone q.cqPub →
      exec (.cqDoneWrite p v) s = .next (s.pairError p .doneRange)) ∧
    (s.nq.state = .unset → exec (.nqDoneWrite v) s = .next s) ∧
    (s.nq.state ≠ .unset → inside s.nq.size s.nq.done s.nq.pub →
      exec (.nqDoneWrite v) s = .next { s with nq := { s.nq with done := v.toNat } }) ∧
    (s.nq.state = .active → ¬inside s.nq.size s.nq.done s.nq.pub → exec (.nqDoneWrite v) s = .next { s with
      nq := { s.nq with
        state := .error
        totLost := min (2 ^ 32 - 1) (s.nq.totLost + (s.writeQ.filter fun w => w.recordOf .nq).length) }
      writeQ := s.writeQ.filter fun w => !w.recordOf .nq }) ∧
    (s.nq.state = .error → ¬inside s.nq.size s.nq.done s.nq.pub → exec (.nqDoneWrite v) s = .next s)

/-- The first error cause of an ACTIVE or DRAINING work pair, and the first device fault, are kept; the records waiting for the
stopped pair's ring, the admin pair's too, are not written and are counted, and a snapshot that waits is not made. Model's
choices: logs 11 and 28. -/
def Obligations.ErrorsStopThePair : Prop :=
  ∀ (s : State) (p : PairId) (c d : ErrorCause),
    let waiting := s.writeQ.filter fun w => w.recordOf (.cq p)
    let stopped (state : PairState) : State := { s with
      pairs := s.pairs.set p { s.pair p with
        state := state, cause := some c, totLost := min (2 ^ 32 - 1) ((s.pair p).totLost + waiting.length) }
      writeQ := s.writeQ.filter fun w => !w.recordOf (.cq p) }
    ((s.pair p).state = .active → (s.pair p).cause = none → s.setCause p c = stopped .error) ∧
    ((s.pair p).state = .draining → (s.pair p).cause = none → s.setCause p c = stopped .draining) ∧
    ((s.pair p).state = .absent ∨ (s.pair p).state = .error ∨ (s.pair p).cause ≠ none → s.setCause p c = s) ∧
    (s.pairError 0 c = s.setFault c ∧ (p ≠ 0 → s.pairError p c = s.setCause p c)) ∧
    (s.fault = some d → s.setFault c = s) ∧
    (s.fault = none →
      let kept := s.writeQ.filter fun w => !w.recordOf (.cq 0)
      let t : State := { s with
        fault := some c
        pairs := s.pairs.set 0 { s.pair 0 with
          totLost := min (2 ^ 32 - 1) ((s.pair 0).totLost + (s.writeQ.filter fun w => w.recordOf (.cq 0)).length) }
        writeQ := kept }
      ((∀ stamp, (s.proc 0).phase ≠ some (.querying stamp)) ∨ (∀ w ∈ s.writeQ, w.isSnapshot = false) → s.setFault c = t) ∧
      (∀ kd ck stamp, s.proc 0 = .busy kd ck (.querying stamp) → (∃ w ∈ s.writeQ, w.isSnapshot = true) →
        s.setFault c = { t.withAck 0 kd ck .ok 0 stamp with writeQ := kept.filter fun w => !w.isSnapshot }))

/-- A device fault, once set, keeps its cause through every command but a reset. -/
def Obligations.FaultLastsUntilReset : Prop :=
  ∀ (c : Instr) (s t : State) (x : ErrorCause), s.fault = some x → c.isReset = false → exec c s = .next t → t.fault = some x

/-- IRQ_PENDING shows, for each completion ring and the notice ring, whether its published tail differs from its done index, and
FAULT; IRQ_N follows the enabled bits. An ABSENT pair and an UNSET notice ring have bits of 0, an error leaves the bits as they
are, and a pair in ERROR still takes its done index. -/
def Obligations.InterruptFollowsTheIndices : Prop :=
  ∀ s : State,
    (∀ p : PairId, s.irqPending.getLsbD p = ((s.pair p).cqPub != (s.pair p).cqDone)) ∧
    s.irqPending.getLsbD 9 = (s.nq.pub != s.nq.done) ∧ s.irqPending.getLsbD 10 = s.fault.isSome ∧
    (s.irqAsserted = true ↔ ∃ i : Fin 11, s.irqPending.getLsbD i = true ∧ s.irqMask.getLsbD i = true) ∧
    (s.RingsInOrder → (∀ p : PairId, (s.pair p).state = .absent → s.irqPending.getLsbD p = false) ∧
      (s.nq.state = .unset → s.irqPending.getLsbD 9 = false)) ∧
    (∀ p c, p ≠ 0 → (s.setCause p c).irqPending = s.irqPending) ∧
    (∀ p (v : W32), s.resetting = none → (s.pair p).state = .error → v.toNat < (s.pair p).cqSize →
      ahead (s.pair p).cqSize (s.pair p).cqDone v.toNat ≤ ahead (s.pair p).cqSize (s.pair p).cqDone (s.pair p).cqPub →
      exec (.cqDoneWrite p v) s = .next { s with pairs := s.pairs.set p { s.pair p with cqDone := v.toNat } })

/-! ## Axes -/

/-- COUNT_EVENT in range: position, count serial, last direction, moved count and net count, and the event handed to the list,
the bound lines and the bound channels; the position moves by one, and wraps modulo M on a ROTARY axis. Model's choices: logs 4
and 22. -/
def Obligations.CountEventMovesTheAxis : Prop :=
  ∀ (s : State) (a : AxisId) (chA chB : Bool) (d : Dir) (g : AxisConfig) (q : Int),
    (s.axis a).config = some g → (s.axis a).sample chA chB = .count d → g.kind.moved (s.axis a).position d = some q →
    let x := s.axis a
    let k := min (2 ^ 64 - 1) (x.serial + 1)
    exec (.countEvent a chA chB) s = .next { s with
      axes := s.axes.set a { x with
        refA := chA, refB := chB, position := q, serial := k, lastDir := some d
        moved := min (2 ^ 32 - 1) (x.moved + 1), net := match d with
          | .fwd => x.net + 1
          | .rev => x.net - 1 }
      pins := { s.pins with encA := s.pins.encA.set a chA, encB := s.pins.encB.set a chB }
      lists := s.lists.set a { s.clist a with inbox := (s.clist a).inbox ++ [.count ⟨d, q, k, s.ts⟩] }
      lines := Vector.ofFn fun n =>
        if (s.line n).boundTo a then { s.line n with fromAxis := (s.line n).fromAxis ++ [.count k] } else s.line n
      channels := Vector.ofFn fun c =>
        if (s.chan c).boundTo a then { s.chan c with inbox := (s.chan c).inbox ++ [.count k] } else s.chan c } ∧
    (g.kind = .linear → q = match d with
      | .fwd => x.position + 1
      | .rev => x.position - 1) ∧
    (∀ m : Nat, g.kind = .rotary m → 0 ≤ x.position → x.position < m →
      q = match d with
        | .fwd => if x.position = (m : Int) - 1 then 0 else x.position + 1
        | .rev => if x.position = 0 then (m : Int) - 1 else x.position - 1)

/-- A count that would leave the LINEAR range, which is the count up at its top and the count down at its bottom, is not
applied. A RUNNING axis is HELD with cause OVERFLOW; an axis already HELD with target RUNNING adds the cause and its notice
once, and a further such count adds nothing. Model's choices: logs 4 and 22. -/
def Obligations.OverflowHoldsTheAxis : Prop :=
  ∀ (s : State) (a : AxisId) (chA chB : Bool) (d : Dir) (g : AxisConfig),
    let x := s.axis a
    let sampled : Axis := { x with refA := chA, refB := chB }
    let pins := { s.pins with encA := s.pins.encA.set a chA, encB := s.pins.encB.set a chB }
    (∀ q : Int, -(2 ^ 31) ≤ q → q ≤ 2 ^ 31 - 1 →
      (AxisKind.linear.moved q d = none ↔ q = 2 ^ 31 - 1 ∧ d = .fwd ∨ q = -(2 ^ 31) ∧ d = .rev)) ∧
    (∀ m q, (AxisKind.rotary m).moved q d ≠ none) ∧
    (x.config = some g → x.sample chA chB = .count d → g.kind.moved x.position d = none →
    (x.state = .running → exec (.countEvent a chA chB) s = .next { s with
      axes := s.axes.set a { sampled with state := .held .running, causes := ⟨false, false, false, true⟩ }
      pins := pins
      lists := s.lists.set a { s.clist a with inbox := (s.clist a).inbox ++ [.freeze] }
      lines := Vector.ofFn fun n =>
        if (s.line n).boundTo a then { s.line n with fromAxis := (s.line n).fromAxis ++ [.held] } else s.line n
      nqReq := s.nqReq ++ [.axisHeld a x.position .overflow ⟨false, false, false, true⟩ .running s.ts] }) ∧
    (x.state = .held .running → exec (.countEvent a chA chB) s = .next (if x.causes.overflow = true
      then { s with axes := s.axes.set a sampled, pins := pins }
      else { s with
        axes := s.axes.set a { sampled with causes := { x.causes with overflow := true } }
        pins := pins
        nqReq := s.nqReq ++ [.axisHeld a x.position .overflow { x.causes with overflow := true } .running s.ts] })) ∧
    (g.kind = .linear ∧ (x.position = 2 ^ 31 - 1 ∧ d = .fwd ∨ x.position = -(2 ^ 31) ∧ d = .rev ∨
      x.position < -(2 ^ 31) ∨ 2 ^ 31 - 1 < x.position)))

/-- ILLEGAL_TRANSITION counts and moves nothing else; DECODER_REFERENCE_UPDATE is no more than a new reference; and what each
sample is: a change of both levels is illegal at every decode, the changes that count at X4, X2 and X1 with their directions,
the rising edges of STEP with DIR, and invert, which exchanges the directions. Model's choices: log 22. -/
def Obligations.SamplesThatDoNotCount : Prop :=
  ∀ (s : State) (a : AxisId) (chA chB : Bool),
    let pins := { s.pins with encA := s.pins.encA.set a chA, encB := s.pins.encB.set a chB }
    ((s.axis a).sample chA chB = .illegal → exec (.illegalTransition a chA chB) s = .next { s with
      axes := s.axes.set a
        { s.axis a with refA := chA, refB := chB, illegal := min (2 ^ 32 - 1) ((s.axis a).illegal + 1) }
      pins := pins }) ∧
    ((s.axis a).sample chA chB = .reference → exec (.decoderReferenceUpdate a chA chB) s = .next { s with
      axes := s.axes.set a { s.axis a with refA := chA, refB := chB }
      pins := pins }) ∧
    ((s.axis a).counting = false → (s.axis a).sample chA chB = .reference) ∧
    (∀ g, (s.axis a).config = some g → (s.axis a).counting = true → (s.axis a).sample chA chB = match g.source with
      | .quad decode invert => quadSample decode invert (s.axis a).refA (s.axis a).refB chA chB
      | .stepdir invert => stepSample invert (s.axis a).refA chA chB
      | .timebase _ _ => .reference) ∧
    (∀ decode invert refA refB, chA ≠ refA → chB ≠ refB → quadSample decode invert refA refB chA chB = .illegal) ∧
    (∀ decode invert, quadSample decode invert chA chB chA chB = .reference) ∧
    (∀ invert level,
      let fwd : SampleKind := .count (if invert = true then .rev else .fwd)
      let rev : SampleKind := .count (if invert = true then .fwd else .rev)
      (quadSample .x4 invert level level (!level) level = fwd ∧ quadSample .x4 invert (!level) level (!level) (!level) = fwd ∧
        quadSample .x4 invert (!level) level level level = rev ∧ quadSample .x4 invert (!level) (!level) (!level) level = rev) ∧
      (quadSample .x2 invert level level (!level) level = fwd ∧ quadSample .x2 invert (!level) level level level = rev ∧
        ∀ chA', quadSample .x2 invert chA' level chA' (!level) = .reference) ∧
      (quadSample .x1 invert false false true false = fwd ∧ quadSample .x1 invert false true true true = rev ∧
        quadSample .x1 invert true level false level = .reference ∧
        ∀ chA', quadSample .x1 invert chA' level chA' (!level) = .reference) ∧
      (stepSample invert false true true = fwd ∧ stepSample invert false true false = rev ∧
        stepSample invert true true level = .reference ∧ stepSample invert level false chB = .reference))

/-- PRESCALER_ADVANCE and PRESCALER_EXPIRY of a counting TIMEBASE axis with prescale P: the P-th tick makes a count event.
Model's choices: log 5. -/
def Obligations.PrescalerDividesTheTicks : Prop :=
  ∀ (s : State) (a : AxisId) (g : AxisConfig) (p : Nat) (d : Dir),
    (s.axis a).config = some g → g.source = .timebase p d → (s.axis a).counting = true → (s.axis a).tick = true →
    let x := s.axis a
    (x.prescaler + 1 < p → exec (.prescalerAdvance a) s = .next { s with
      axes := s.axes.set a { x with prescaler := x.prescaler + 1, tick := false } }) ∧
    (p ≤ x.prescaler + 1 → exec (.prescalerExpiry a) s = .next
      (({ s with axes := s.axes.set a { x with prescaler := 0, tick := false } } : State).count a d)) ∧
    (∀ q, p ≤ x.prescaler + 1 → g.kind.moved x.position d = some q → ∃ t, exec (.prescalerExpiry a) s = .next t ∧
      (t.axis a).position = q ∧ (t.axis a).prescaler = 0 ∧ (t.axis a).serial = min (2 ^ 64 - 1) (x.serial + 1))

/-- INDEX_EDGE: ignored unless the axis counts and its last direction fits index_direction; and, taken as an index event, the
spacing check, the preset, and the index history. -/
def Obligations.IndexEventChecksAndPresets : Prop :=
  ∀ (s : State) (a : AxisId) (g : AxisConfig),
    let taken : Prop := ((s.axis a).state = .running ∨ (s.axis a).state = .held .running) ∧
      match g.indexDir with
      | .fwd => (s.axis a).lastDir = some .fwd
      | .rev => (s.axis a).lastDir = some .rev
      | .either => (s.axis a).lastDir ≠ none
    ((s.axis a).config = none → exec (.indexEdge a) s = .next s) ∧
    ((s.axis a).config = some g → ¬taken → exec (.indexEdge a) s = .next s) ∧
    ((s.axis a).config = some g → taken →
    let x := s.axis a
    let bad : Bool := if g.spacing ≠ 0 ∧ x.prevIndex = true
      then decide (g.tolerance < x.net.natAbs ∧ g.tolerance < ((x.net.natAbs : Int) - g.spacing).natAbs) else x.spacingError
    let y : Axis := { x with spacingError := bad, prevIndex := true, net := 0 }
    (g.indexMode = .none ∨ (g.indexMode = .homeOnce ∧ x.homePending = false) →
      exec (.indexEdge a) s = .next { s with axes := s.axes.set a y }) ∧
    (g.indexMode = .homeOnce → x.homePending = true → exec (.indexEdge a) s = .next { s with
      axes := s.axes.set a { y with position := g.preset, homePending := false }
      nqReq := s.nqReq ++ [.homeDone a x.position g.preset x.serial s.ts] }) ∧
    (g.indexMode = .presetEvery → exec (.indexEdge a) s = .next { s with
      axes := s.axes.set a { y with position := g.preset }
      nqReq := s.nqReq ++ if x.position = g.preset then [] else [.indexCorrected a x.position g.preset x.serial s.ts] }))


/-- HOLD_IN_DEASSERT_AXIS, HOLD_IN_ASSERT_AXIS and HOLD_REQUEST: a hold request takes a RUNNING or STOPPED axis to HELD, adds
its cause to a HELD axis, and is ignored at an UNCONFIGURED one. Model's choices: log 4. -/
def Obligations.HoldRequestsHoldTheAxis : Prop :=
  ∀ (s : State) (a : AxisId) (c : Cause) (rest : List Cause),
    (exec (.holdInDeassertAxis a) s = .next { s with
      axes := s.axes.set a { s.axis a with holdIn := false }, pins := { s.pins with holdIn := false } }) ∧
    (exec (.holdInAssertAxis a) s = .next (({ s with
      axes := s.axes.set a { s.axis a with holdIn := true }, pins := { s.pins with holdIn := true } } : State).hold a .inhibit)) ∧
    ((s.axis a).holdReqs = c :: rest → exec (.holdRequest a) s = .next
      (({ s with axes := s.axes.set a { s.axis a with holdReqs := rest } } : State).hold a c)) ∧
    ((s.axis a).state = .unconfigured → s.hold a c = s) ∧
    (∀ x, ((s.axis a).state = .running ∧ x = Target.running) ∨ ((s.axis a).state = .stopped ∧ x = Target.stopped) →
      ((s.hold a c).axis a = { s.axis a with state := .held x, causes := noCauses.add c } ∧
        ((s.hold a c).clist a).inbox = (s.clist a).inbox ++ [.freeze] ∧
        (∀ n, (s.line n).boundTo a = true → ((s.hold a c).line n).fromAxis = (s.line n).fromAxis ++ [.held]) ∧
        (s.hold a c).nqReq = s.nqReq ++ [.axisHeld a (s.axis a).position c (noCauses.add c) x s.ts])) ∧
    (∀ x, (s.axis a).state = .held x → s.hold a c = if (s.axis a).causes.has c then s else { s with
      axes := s.axes.set a { s.axis a with causes := (s.axis a).causes.add c }
      nqReq := s.nqReq ++ [.axisHeld a (s.axis a).position c ((s.axis a).causes.add c) x s.ts] })

/-- The position of a configured axis stays in its range through every command. -/
def Obligations.PositionsStayInRange : Prop :=
  ∀ s t : State, s.PositionsInRange → step s = .next t → t.PositionsInRange

/-- An axis has a hold cause exactly while it is HELD, through every command. -/
def Obligations.HeldExactlyWithACause : Prop :=
  ∀ s t : State, s.CausesMatchHold → step s = .next t → t.CausesMatchHold

/-- AXIS_START, AXIS_STOP, AXIS_HALT, AXIS_SET_POSITION and AXIS_HOME at a configured axis, with their refusals. Model's
choices: logs 3, 4 and 5. -/
def Obligations.AxisRequestsAtAConfiguredAxis : Prop :=
  ∀ (s : State) (r : Record) (p : PairId) (g : AxisConfig),
    let a := r.axisAt 8
    let x := s.axis a
    x.config = some g →
    (s.Takes r .axisStart p → exec (.axisStart r) s = .next
      (if x.holdIn = true then s.recordAnswered p r .inhibited 0 s.ts
      else if x.state = .stopped then { s.recordAnswered p r .ok 0 s.ts with
        axes := s.axes.set a
          { x with state := .running, prescaler := 0, prevIndex := false, net := 0, spacingError := false, tick := false } }
      else s.recordAnswered p r .axisState 0 s.ts)) ∧
    (s.Takes r .axisStop p → exec (.axisStop r) s = .next
      (if x.state = .running then { s.recordAnswered p r .ok 0 s.ts with
        axes := s.axes.set a { x with state := .stopped, tick := false }
        lines := Vector.ofFn fun n =>
          if (s.line n).boundTo a then { s.line n with fromAxis := (s.line n).fromAxis ++ [.stop] } else s.line n }
      else s.recordAnswered p r .axisState 0 s.ts)) ∧
    (s.Takes r .axisHalt p → ∃ t, exec (.axisHalt r) s = .next t ∧
      t = { s.hold a .host with
        engine := none, pairs := t.pairs, procs := t.procs, cqReq := t.cqReq, writeQ := t.writeQ } ∧
      (s.recordAnswered p r .ok 0 s.ts).pairs = t.pairs ∧ (s.recordAnswered p r .ok 0 s.ts).procs = t.procs ∧
      (s.recordAnswered p r .ok 0 s.ts).cqReq = t.cqReq ∧ (s.recordAnswered p r .ok 0 s.ts).writeQ = t.writeQ) ∧
    (s.Takes r .axisSetPosition p → exec (.axisSetPosition r) s = .next
      (if posOutside g.kind (r.s32 12) = true then s.recordAnswered p r .badField 6 s.ts
      else if x.state = .running then s.recordAnswered p r .axisState 0 s.ts
      else { s.recordAnswered p r .ok 0 s.ts with axes := s.axes.set a { x with position := r.s32 12 } })) ∧
    (s.Takes r .axisHome p → exec (.axisHome r) s = .next
      (if g.indexMode ≠ .homeOnce then s.recordAnswered p r .indexMode 0 s.ts
      else if r.flag 0 = true ∧ x.homePending = false then s.recordAnswered p r .notPending 0 s.ts
      else { s.recordAnswered p r .ok 0 s.ts with axes := s.axes.set a { x with homePending := !r.flag 0 } }))

/-- AXIS_RESUME at a configured axis: its three refusals in order, with the trips that refuse it, and the accepted resume.
Model's choices: logs 3 and 4. -/
def Obligations.AxisResumeReleasesTheHold : Prop :=
  ∀ (s : State) (r : Record) (p : PairId) (g : AxisConfig) (x : Target),
    let a := r.axisAt 8
    s.Takes r .axisResume p → (s.axis a).config = some g →
    ((s.axis a).isHeld = false → exec (.axisResume r) s = .next (s.recordAnswered p r .axisState 0 s.ts)) ∧
    ((s.axis a).state = .held x → exec (.axisResume r) s = .next
      (if (s.axis a).holdIn = true then s.recordAnswered p r .inhibited 0 s.ts
      else if s.axisTripped a = true then s.recordAnswered p r .axisTripped 0 s.ts
      else { s.recordAnswered p r .ok 0 s.ts with
        axes := s.axes.set a { s.axis a with state := x.state, causes := noCauses }
        lists := s.lists.set a { s.clist a with inbox := (s.clist a).inbox ++ [.unfreeze] }
        lines := Vector.ofFn fun n =>
          if (s.line n).boundTo a then { s.line n with fromAxis := (s.line n).fromAxis ++ [.resumed] } else s.line n })) ∧
    (s.axisTripped a = true ↔ ∃ m k, (s.slot m).config = some k ∧ (s.slot m).state = .tripped ∧
      (k.severity = .hold ∨ k.severity = .latch) ∧ match k.kind with
        | .overspeed b _ => b = a
        | .quadError b _ => b = a
        | .indexSpacing b => b = a
        | .lineFeedback n => ∃ d, (s.line n).config = .compare a d)

/-- The six axis records that act on a configured axis, and CANCEL_AXIS, are refused NOT_CONFIGURED where they name an
UNCONFIGURED axis, and only the Ring Engine's side changes. Model's choices: log 3. -/
def Obligations.UnconfiguredAxisIsRefused : Prop :=
  ∀ (s : State) (r : Record) (p : PairId), (s.axis (r.axisAt 8)).config = none →
    let t := s.recordAnswered p r .notConfigured 0 s.ts
    (s.Takes r .axisStart p → exec (.axisStart r) s = .next t) ∧ (s.Takes r .axisStop p → exec (.axisStop r) s = .next t) ∧
    (s.Takes r .axisHalt p → exec (.axisHalt r) s = .next t) ∧ (s.Takes r .axisResume p → exec (.axisResume r) s = .next t) ∧
    (s.Takes r .axisSetPosition p → exec (.axisSetPosition r) s = .next t) ∧
    (s.Takes r .axisHome p → exec (.axisHome r) s = .next t) ∧ (s.Takes r .cancelAxis p → exec (.cancelAxis r) s = .next t)

/-- AXIS_CONFIG: refused AXIS_STATE or AXIS_HAS_ENTRIES, and otherwise the new configuration with its reset values, STOPPED, or
HELD when HOLD_IN is asserted or a standing trip names the axis; with the entries that refuse it and the trips that hold it.
Model's choices: logs 3, 4, 5, 10 and 22. -/
def Obligations.AxisConfigStartsAfresh : Prop :=
  ∀ (s : State) (r : Record) (p : PairId), s.Takes r .axisConfig p → s.proc p = .idle →
    let a := r.axisAt 8
    let x := s.axis a
    let trip := s.axisTripNamed a
    let held := x.holdIn || trip
    (x.state = .running ∨ x.isHeld = true → exec (.axisConfig r) s = .next (s.recordAnswered p r .axisState 0 s.ts)) ∧
    (x.state = .unconfigured ∨ x.state = .stopped → s.axisHasEntries a = true →
      exec (.axisConfig r) s = .next (s.recordAnswered p r .axisHasEntries 0 s.ts)) ∧
    (x.state = .unconfigured ∨ x.state = .stopped → s.axisHasEntries a = false →
      exec (.axisConfig r) s = .next { s.recordAnswered p r .ok 0 s.ts with
        axes := s.axes.set a
          { config := some r.axisConfig, state := if held then .held .stopped else .stopped
            causes := ⟨false, x.holdIn, trip, false⟩, position := 0, lastDir := none, serial := 0, refA := s.pins.encA[a]
            refB := s.pins.encB[a], prescaler := 0, homePending := false, prevIndex := false, net := 0, spacingError := false
            moved := 0, illegal := 0, holdIn := x.holdIn, tick := false, holdReqs := x.holdReqs }
        lists := s.lists.set a
          { s.clist a with nextArm := 0, frozen := false, inbox := if held then [.freeze] else [] }
        lines := Vector.ofFn fun n => if (s.line n).boundTo a
          then { s.line n with fromAxis := (s.line n).fromAxis ++ .stop :: if held then [.held] else [] } else s.line n
        channels := Vector.ofFn fun c =>
          if (s.chan c).boundTo a then { s.chan c with inbox := (s.chan c).inbox ++ [.axisConfig] } else s.chan c
        nqReq := s.nqReq ++
          (if x.holdIn then [.axisHeld a 0 .inhibit ⟨false, true, false, false⟩ .stopped s.ts] else []) ++
          (if trip then [.axisHeld a 0 .trip ⟨false, x.holdIn, true, false⟩ .stopped s.ts] else []) }) ∧
    (s.axisHasEntries a = true ↔
      (∃ b, ∃ y ∈ (s.clist b).entries, y.entry.axis = a) ∨
      (∃ b, ∃ k ∈ (s.clist b).activations, ∃ w ∈ k.entries, w.entry.axis = a) ∨
      (∃ c b, ((s.chan c).openBatch = some b ∨ b ∈ (s.chan c).closed) ∧ ∃ w ∈ b.entries, w.entry.axis = a) ∨
      (∃ q kd ck e pos, s.proc q = .busy kd ck (.inserting e pos) ∧ e.axis = a) ∨
      (∃ q kd ck w c close, s.proc q = .busy kd ck (.appending w c close) ∧ w.entry.axis = a)) ∧
    (s.axisTripNamed a = true ↔ ∃ m k, (s.slot m).config = some k ∧ (s.slot m).state = .tripped ∧
      (k.severity = .hold ∨ k.severity = .latch) ∧ match k.kind with
        | .overspeed b _ => b = a
        | .quadError b _ => b = a
        | .indexSpacing b => b = a
        | .lineFeedback _ => False)

/-! ## Compare lists and entries -/

/-- LIST_FREEZE, LIST_UNFREEZE, and LIST_COUNT_EVENT where nothing fires: on a frozen list, or with no entry at the position
arrived at that accepts the direction. And what a list takes before a tick and before an insertion: the messages of its inbox,
in order, up to the last count event. Model's choices: logs 4, 40 and 43. -/
def Obligations.FrozenListFiresNothing : Prop :=
  ∀ (s : State) (a : AxisId) (k : Count) (rest : List ListMsg),
    let l := s.clist a
    (l.inbox = .freeze :: rest →
      exec (.listFreeze a) s = .next { s with lists := s.lists.set a { l with inbox := rest, frozen := true } }) ∧
    (l.inbox = .unfreeze :: rest →
      exec (.listUnfreeze a) s = .next { s with lists := s.lists.set a { l with inbox := rest, frozen := false } }) ∧
    (l.inbox = .count k :: rest →
      l.frozen = true ∨ (∀ x ∈ l.entries, x.pos ≠ k.pos ∨ x.entry.qual.accepts k.dir = false) →
      exec (.listCountEvent a) s = .next { s with lists := s.lists.set a { l with inbox := rest } }) ∧
    ((∀ z, ListMsg.count z ∉ l.inbox) → s.takeCounts a = s) ∧
    (∀ m t, l.inbox = m :: rest → (∃ z, ListMsg.count z ∈ l.inbox) →
      exec (match m with
        | .count _ => .listCountEvent a
        | .freeze => .listFreeze a
        | .unfreeze => .listUnfreeze a) s = .next t → s.takeCounts a = t.takeCounts a)

/-- LIST_COUNT_EVENT on a list that is not frozen: the entries at the position arrived at whose qualifier accepts the direction
fire one after another, each fire completed before the next, in ascending arm order on a list in its order. And the fire of an
entry with no repeats left, from any state: its action goes to its line, its FIRE report with the final flag to its owner pair
if it reports, and the entry is released, after the line has taken the actions sent to it. Model's choices: logs 4, 33 and 45.
-/
def Obligations.OneShotEntryFiresAndIsReleased : Prop :=
  ∀ (s : State) (a : AxisId) (k : Count) (g : AxisConfig),
    (∀ rest, (s.clist a).inbox = .count k :: rest → (s.clist a).frozen = false → (s.axis a).config = some g →
      let firing := (s.clist a).entries.filter fun y => y.pos == k.pos && y.entry.qual.accepts k.dir
      exec (.listCountEvent a) s = .next (firing.foldl (State.fireArmed a g.kind k)
        { s with lists := s.lists.set a { s.clist a with inbox := rest } }) ∧
      (s.ListsInOrder → firing.Pairwise fun y z => y.order ≤ z.order)) ∧
    (∀ x : Armed, x.entry.repeatLeft = 0 →
      let e := x.entry
      let t := State.fireArmed a g.kind k s x
      let sent : Line := { s.line e.line with fromList := (s.line e.line).fromList ++ [⟨e.action, k.serial, k.stamp⟩] }
      let fire : CqRequest := .fire ⟨e.axis, e.tag, k.pos, e.occurrence, k.dir, true, k.serial, k.stamp⟩
      t = { ({ s with lines := s.lines.set e.line sent } : State).afterRetirements [e] with
        lists := s.lists.set a { s.clist a with entries := (s.clist a).entries.erase x }
        cqReq := s.cqReq.set e.owner (s.requests e.owner ++ if e.report = true then [fire] else []) }) ∧
    (∀ (q : Qualifier) (d : Dir), q.accepts d = true ↔ q = .either ∨ (q = .fwd ∧ d = .fwd) ∨ (q = .rev ∧ d = .rev))


/-- The fire of a repeating entry at a count event, from any state: its action goes to its line and its FIRE report, not final,
to its owner pair if it reports; it is placed at position plus pitch, modulo M on a ROTARY axis, with its arm order kept, or,
where that leaves the LINEAR range or makes a ninth entry, is retired, with END_RANGE or END_CROWDED if it reports. A
LIST_COUNT_EVENT at which it alone fires does exactly this. Model's choices: logs 4, 33 and 45. -/
def Obligations.RepeatingEntryAdvancesOrRetires : Prop :=
  ∀ (s : State) (a : AxisId) (k : Count) (g : AxisConfig) (x : Armed) (n : Nat) (d : Int),
    let l := s.clist a
    let e := x.entry
    let left := l.entries.erase x
    let e' : Entry := { e with repeatLeft := n, occurrence := min 65535 (e.occurrence + 1) }
    let reports (r : List CqRequest) : List CqRequest := if e.report = true then r else []
    let fire : CqRequest := .fire ⟨e.axis, e.tag, k.pos, e.occurrence, k.dir, false, k.serial, k.stamp⟩
    let sent : Line := { s.line e.line with fromList := (s.line e.line).fromList ++ [⟨e.action, k.serial, k.stamp⟩] }
    let t := State.fireArmed a g.kind k s x
    e.repeatLeft = n + 1 → e.pitch = some d →
    (∀ u rest, (u.clist a).inbox = .count k :: rest → (u.clist a).frozen = false → (u.axis a).config = some g →
      ((u.clist a).entries.filter fun y => y.pos == k.pos && y.entry.qual.accepts k.dir) = [x] →
      s = { u with lists := u.lists.set a { u.clist a with inbox := rest } } → exec (.listCountEvent a) u = .next t) ∧
    (∀ q, g.kind.target k.pos d = some q → left.countP (fun y => y.pos == q) < 8 →
      t = { s with
        lists := s.lists.set a { l with entries := insertArmed ⟨e', q, x.order⟩ left }
        lines := s.lines.set e.line sent
        cqReq := s.cqReq.set e.owner (s.requests e.owner ++ reports [fire]) }) ∧
    (∀ q r, (g.kind.target k.pos d = some q ∧ 8 ≤ left.countP (fun y => y.pos == q) ∧
        r = CqRequest.retire ⟨e.axis, e.tag, q, e'.occurrence, .endCrowded, k.serial, k.stamp⟩) ∨
      (g.kind.target k.pos d = none ∧
        r = CqRequest.retire ⟨e.axis, e.tag, k.pos, e'.occurrence, .endRange, k.serial, k.stamp⟩) →
      t = { ({ s with lines := s.lines.set e.line sent } : State).afterRetirements [e] with
        lists := s.lists.set a { l with entries := left }
        cqReq := s.cqReq.set e.owner (s.requests e.owner ++ reports [fire, r]) }) ∧
    (∀ pos pitch : Int,
      AxisKind.linear.target pos pitch =
        (if -(2 ^ 31) ≤ pos + pitch ∧ pos + pitch ≤ 2 ^ 31 - 1 then some (pos + pitch) else none) ∧
      ∀ m : Nat, 0 ≤ pos → pos < m → -m < pitch → pitch < m → (AxisKind.rotary m).target pos pitch =
        some (if pos + pitch < 0 then pos + pitch + m else if pos + pitch < m then pos + pitch else pos + pitch - m))

/-- ALLOCATION for an ARM or an ARM_DEFERRED: its tests in order, and the entry it takes. Model's choices: log 3. -/
def Obligations.AllocationTakesAFreeEntry : Prop :=
  ∀ (s : State) (p : PairId) (kd : Byte) (ck : W32) (e : Entry) (ph : Phase),
    let granted (next : Phase) : State := { s with
      pool := ⟨s.pool.free - 1, s.pool.quota, s.pool.live.set p (s.pool.live[p] + 1)⟩
      lines := s.lines.set e.line { s.line e.line with refCount := (s.line e.line).refCount + 1 }
      procs := s.procs.set p (.busy kd ck next) }
    let answer (next : Phase) : State :=
      if s.pool.quota[p] ≤ s.pool.live[p] then s.withAck p kd ck .quotaFull 0 s.ts
      else if s.pool.free = 0 then s.withAck p kd ck .poolEmpty 0 s.ts
      else match (s.line e.line).config with
        | .compare b _ => if b = e.axis then granted next else s.withAck p kd ck .lineAxis 0 s.ts
        | _ => s.withAck p kd ck .lineMode 0 s.ts
    s.proc p = .busy kd ck ph →
    (∀ pos, ph = .allocateArm e pos → exec (.allocation p) s = .next (answer (.inserting e pos))) ∧
    (∀ off c close, ph = .allocateDeferred ⟨e, off⟩ c close →
      exec (.allocation p) s = .next (answer (.appending ⟨e, off⟩ c close)))

/-- The late test: not made on a frozen list or with last direction NONE; otherwise an entry whose qualifier accepts the last
direction is late when its behind distance lies in 0..L. Model's choices: log 21. -/
def Obligations.LateTestLooksBehind : Prop :=
  ∀ (s : State) (a : AxisId) (g : AxisConfig) (e : Entry) (pos : Int) (d : Dir),
    (s.lateTest a g e pos = some d ↔
      (s.clist a).frozen = false ∧ (s.axis a).lastDir = some d ∧ e.qual.accepts d = true ∧
        0 ≤ g.kind.behind d (s.axis a).position pos ∧ g.kind.behind d (s.axis a).position pos ≤ g.lateWindow) ∧
    (∀ x : Int, AxisKind.linear.behind .fwd x pos = x - pos ∧ AxisKind.linear.behind .rev x pos = pos - x) ∧
    (∀ (m : Nat) (x : Int), 0 ≤ x → x < m → 0 ≤ pos → pos < m →
      (AxisKind.rotary m).behind .fwd x pos = (if pos ≤ x then x - pos else x - pos + m) ∧
      (AxisKind.rotary m).behind .rev x pos = (if x ≤ pos then pos - x else pos - x + m))

/-- INSERTION of an ARM's entry: armed with a new arm order, refused PASSED, refused CROWDED, or fired late, with its repeat
advance; and the two BAD_FIELD answers. The list first takes the count events that wait for it. An entry that is released is
released after its line has taken the actions sent to it. Model's choices: logs 3, 4, 21, 33, 43 and 45. -/
def Obligations.InsertionArmsOrAnswers : Prop :=
  ∀ (s : State) (p : PairId) (kd : Byte) (ck : W32) (e : Entry) (pos : Int) (g : AxisConfig),
    let l := s.clist e.axis
    let retired (st : Status) (detail : Nat) : State := (s.afterRetirements [e]).withAck p kd ck st detail s.ts
    let sent : Line := { s.line e.line with fromList := (s.line e.line).fromList ++ [⟨e.action, (s.axis e.axis).serial, s.ts⟩] }
    let fired (reports : List CqRequest) : State :=
      ({ ({ s with lines := s.lines.set e.line sent } : State).afterRetirements [e] with
        cqReq := s.cqReq.set e.owner (s.requests e.owner ++ if e.report = true then reports else []) } : State).withAck p kd ck
          .lateFired e.occurrence s.ts
    s.proc p = .busy kd ck (.inserting e pos) → (s.axis e.axis).config = some g →
    exec (.insertion p) s = exec (.insertion p) (s.takeCounts e.axis) ∧
    ((∀ k, ListMsg.count k ∉ l.inbox) →
    (posOutside g.kind pos = true → exec (.insertion p) s = .next (retired .badField 5)) ∧
    (posOutside g.kind pos = false → pitchTooWide g.kind e = true →
      exec (.insertion p) s = .next (retired .badField 6)) ∧
    (posOutside g.kind pos = false → pitchTooWide g.kind e = false →
      let late := s.lateTest e.axis g e pos
      (late = none ∨ e.late = .wait → l.countAt pos < 8 → exec (.insertion p) s = .next { s.withAck p kd ck .ok 0 s.ts with
        lists := s.lists.set e.axis { l with
          entries := insertArmed ⟨e, pos, l.nextArm⟩ l.entries, nextArm := min (2 ^ 64 - 1) (l.nextArm + 1) } }) ∧
      (late = none ∨ e.late = .wait → 8 ≤ l.countAt pos → exec (.insertion p) s = .next (retired .crowded 0)) ∧
      (late.isSome = true → e.late = .refuse → exec (.insertion p) s = .next (retired .passed 0)) ∧
      (late.isSome = true → e.late = .fire → e.repeatLeft = 0 → exec (.insertion p) s = .next (fired [])) ∧
      (∀ n d, late.isSome = true → e.late = .fire → e.repeatLeft = n + 1 → e.pitch = some d →
        let e' : Entry := { e with repeatLeft := n, occurrence := min 65535 (e.occurrence + 1) }
        let serial := (s.axis e.axis).serial
        (∀ q, g.kind.target pos d = some q → l.countAt q < 8 → exec (.insertion p) s = .next
          { s.withAck p kd ck .lateFired e.occurrence s.ts with
            lines := s.lines.set e.line sent
            lists := s.lists.set e.axis { l with
              entries := insertArmed ⟨e', q, l.nextArm⟩ l.entries, nextArm := min (2 ^ 64 - 1) (l.nextArm + 1) } }) ∧
        (∀ q, g.kind.target pos d = some q → 8 ≤ l.countAt q → exec (.insertion p) s = .next
          (fired [.retire ⟨e.axis, e.tag, q, e'.occurrence, .endCrowded, serial, s.ts⟩])) ∧
        (g.kind.target pos d = none → exec (.insertion p) s = .next
          (fired [.retire ⟨e.axis, e.tag, pos, e'.occurrence, .endRange, serial, s.ts⟩]))))) ∧
    (posOutside g.kind pos = true ↔ ∃ m : Nat, g.kind = .rotary m ∧ (pos < 0 ∨ m ≤ pos)) ∧
    (pitchTooWide g.kind e = true ↔ ∃ m d, g.kind = .rotary m ∧ e.pitch = some d ∧ m ≤ d.natAbs)


/-- ACTIVATION_INSERTION of the next entry of an activation, after the count events that wait for the list: armed at origin plus
offset; retired silently, and counted by the DELETE_PAIR, when its pair is being discarded; retired, with ACT_RANGE, ACT_PASSED
or ACT_CROWDED if it reports; or fired late, and then released, or placed by its repeat advance, or retired with END_CROWDED or
END_RANGE. Model's choices: logs 4, 21, 33, 43 and 45. -/
def Obligations.ActivationInsertsInBatchOrder : Prop :=
  ∀ (s : State) (a : AxisId) (i : Nat) (k : Activation) (w : Waiting) (rest : List Waiting) (g : AxisConfig),
    let l := s.clist a
    let e := w.entry
    let serial := (s.axis a).serial
    let l' : CList :=
      { l with activations := if rest = [] then l.activations.eraseIdx i else l.activations.set i { k with entries := rest } }
    let fired : FireAction := ⟨e.action, serial, s.ts⟩
    l.activations[i]? = some k → k.entries = w :: rest → (s.axis a).config = some g →
    exec (.activationInsertion a i) s = exec (.activationInsertion a i) (s.takeCounts a) ∧
    ((∀ z, ListMsg.count z ∉ l.inbox) →
    let retired (sent : List FireAction) (r : List CqRequest) : State :=
      { ({ s with lines := s.lines.set e.line { s.line e.line with fromList := (s.line e.line).fromList ++ sent } } :
          State).afterRetirements [e] with
        lists := s.lists.set a l'
        cqReq := s.cqReq.set e.owner (s.requests e.owner ++ if e.report = true then r else []) }
    ∃ t, exec (.activationInsertion a i) s = .next t ∧
      t = { s with lists := t.lists, pool := t.pool, lines := t.lines, procs := t.procs, cqReq := t.cqReq } ∧
      (∀ b, b ≠ a → t.clist b = s.clist b) ∧ (∀ n, n ≠ e.line → t.line n = s.line n) ∧
      (∀ q, q ≠ e.owner → t.requests q = s.requests q) ∧
      (l.discarding.contains e.owner = true → t = { retired [] [] with procs := t.procs } ∧
          (∀ p, p ≠ 0 → t.proc p = (retired [] []).proc p) ∧
          t.proc 0 = match (retired [] []).proc 0 with
            | .busy kd ck (.discarding q x z) => .busy kd ck (.discarding q (if q = e.owner then { x with sum := x.sum + 1 } else x) z)
            | y => y) ∧
      (l.discarding.contains e.owner = false → pitchTooWide g.kind e = true ∨ g.kind.formed k.origin w.offset = none →
          t = retired [] [.retire ⟨e.axis, e.tag, k.origin, e.occurrence, .actRange, serial, s.ts⟩]) ∧
      (∀ pos, l.discarding.contains e.owner = false → pitchTooWide g.kind e = false →
          g.kind.formed k.origin w.offset = some pos →
          let late := s.lateTest a g e pos
          (late = none ∨ e.late = .wait → l.countAt pos < 8 → t = { s with lists := s.lists.set a { l' with
            entries := insertArmed ⟨e, pos, l.nextArm⟩ l.entries, nextArm := min (2 ^ 64 - 1) (l.nextArm + 1) } }) ∧
          (late.isSome = true → e.late = .refuse →
            t = retired [] [.retire ⟨e.axis, e.tag, pos, e.occurrence, .actPassed, serial, s.ts⟩]) ∧
          (late = none ∨ e.late = .wait → 8 ≤ l.countAt pos →
            t = retired [] [.retire ⟨e.axis, e.tag, pos, e.occurrence, .actCrowded, serial, s.ts⟩]) ∧
          (∀ d, late = some d → e.late = .fire →
            let fire (final : Bool) : CqRequest := .fire ⟨e.axis, e.tag, pos, e.occurrence, d, final, serial, s.ts⟩
            (e.repeatLeft = 0 → t = retired [fired] [fire true]) ∧
            (∀ n pitch, e.repeatLeft = n + 1 → e.pitch = some pitch →
              let e' : Entry := { e with repeatLeft := n, occurrence := min 65535 (e.occurrence + 1) }
              (∀ q, g.kind.target pos pitch = some q → l.countAt q < 8 → t = { s with
                lists := s.lists.set a { l' with
                  entries := insertArmed ⟨e', q, l.nextArm⟩ l.entries, nextArm := min (2 ^ 64 - 1) (l.nextArm + 1) }
                lines := s.lines.set e.line { s.line e.line with fromList := (s.line e.line).fromList ++ [fired] }
                cqReq := s.cqReq.set e.owner
                  (s.requests e.owner ++ if e.report = true then [fire false] else []) }) ∧
              (∀ q, g.kind.target pos pitch = some q → 8 ≤ l.countAt q →
                t = retired [fired] [fire false, .retire ⟨e.axis, e.tag, q, e'.occurrence, .endCrowded, serial, s.ts⟩]) ∧
              (g.kind.target pos pitch = none →
                t = retired [fired] [fire false, .retire ⟨e.axis, e.tag, pos, e'.occurrence, .endRange, serial, s.ts⟩])))) ∧
      (∀ origin offset : Int,
          AxisKind.linear.formed origin offset =
            (if -(2 ^ 31) ≤ origin + offset ∧ origin + offset ≤ 2 ^ 31 - 1 then some (origin + offset) else none) ∧
          ∀ m : Nat, 0 < m → ∃ pos turns : Int, (AxisKind.rotary m).formed origin offset = some pos ∧ 0 ≤ pos ∧ pos < m ∧
            origin + offset = pos + turns * m))

/-- Every list stays in its order, with at most eight entries at one position, through every step. -/
def Obligations.ListsStayInOrderAndUncrowded : Prop :=
  ∀ s t : State, s.ListsInOrder → step s = .next t → t.ListsInOrder

/-- Every entry stays accounted for through every step, in states where each pair has one record at a time; and a fire action on
its way to a line always finds an armed entry that names the line. Model's choices: logs 3 and 33. -/
def Obligations.EntriesStayAccountedFor : Prop :=
  ∀ s t : State, s.OneRecord → s.EntriesCounted → step s = .next t → t.EntriesCounted

/-- Each pair has one record at a time, holding its reservation and handing one ack, through every step. Model's choices: log 3.
-/
def Obligations.PairsKeepOneRecordAtATime : Prop :=
  ∀ s t : State, s.OneRecord → step s = .next t → t.OneRecord

/-- `State.reset` meets every invariant stated here. Model's choices: logs 6 and 34. -/
def Obligations.ResetMeetsTheInvariants : Prop :=
  State.reset.PositionsInRange ∧ State.reset.CausesMatchHold ∧ State.reset.ListsInOrder ∧ State.reset.OneRecord ∧
    State.reset.EntriesCounted ∧ State.reset.RingsInOrder

/-- LIST_CANCEL, LIST_CANCEL_AXIS and LIST_DISCARD_PAIR remove from a list exactly the entries they reach, release each
silently, after its line has taken the actions sent to it, and answer their number; a discard also puts the pair in the
discarding set. Model's choices: logs 33 and 45. -/
def Obligations.ListRemovalsReachTheirScope : Prop :=
  ∀ (s : State) (a : AxisId) (p : PairId) (kd : Byte) (ck : W32) (rm : Removing), Block.list a ∈ rm.todo →
    let gone (reaches : Armed → Bool) : List Entry := ((s.clist a).entries.filter reaches).map fun x => x.entry
    let removed (reaches : Armed → Bool) (discarding : List PairId) : State :=
      { s.afterRetirements (gone reaches) with
        lists := s.lists.set a { s.clist a with
          entries := (s.clist a).entries.filter fun x => !reaches x, discarding := discarding } }
    let answered (reaches : Armed → Bool) : Removing :=
      { rm with todo := rm.todo.erase (.list a), answers := rm.answers ++ [((gone reaches).length, s.ts)] }
    let owned (x : Armed) : Bool := x.entry.owner == p
    let kept := (s.clist a).discarding
    (∀ scope restrict, s.proc p = .busy kd ck (.cancelling scope restrict rm) →
      let reaches (x : Armed) : Bool := owned x && match scope with
        | .tag t => x.entry.tag == t
        | .group g => x.entry.group == g
        | .all => true
      exec (.listCancel a p) s = .next { removed reaches kept with
        procs := (removed reaches kept).procs.set p (.busy kd ck (.cancelling scope restrict (answered reaches))) }) ∧
    (∀ b, s.proc 0 = .busy kd ck (.cancellingAxis b rm) →
      let t := removed (fun _ => true) kept
      exec (.listCancelAxis a) s = .next { t with
        procs := t.procs.set 0 (.busy kd ck (.cancellingAxis b (answered fun _ => true))) }) ∧
    (∀ z, s.proc 0 = .busy kd ck (.discarding p rm z) →
      let t := removed owned (if p ∈ kept then kept else p :: kept)
      let emptied : Option Nat :=
        if z = none ∧ 0 < (gone owned).length ∧ s.pool.live[p] ≤ (gone owned).length then some s.ts else z
      exec (.listDiscardPair a) s = .next { t with procs := t.procs.set 0 (.busy kd ck (.discarding p (answered owned) emptied)) })


/-- LINE_FIRE_ACTION: SET, CLEAR, TOGGLE and PULSE in each state of the line, and PULSE on a PULSING line by its retrigger
setting, where no message of the line's Axis Unit waits ahead of the count event of the fire; where one does, the line takes
that message first; a release from the list finds all the actions before it taken, one after another in this way; and the driven
level and the pin of a line in each state; that the driven level of an UNDRIVEN line is inactive is the model's choice (log 41).
Model's choices: logs 4, 5, 33, 41 and 45. -/
def Obligations.LineTakesFireActions : Prop :=
  ∀ (s : State) (n : LineId) (act : Action) (serial stamp : Nat) (rest : List FireAction),
    let l : Line := { s.line n with fromList := rest }
    let becomes (st : LineState) (tick : Bool) : Prop :=
      exec (.lineFireAction n) s = .next { s with lines := s.lines.set n { l with state := st, tick := tick } }
    let newEnd (d : Nat) (u : PulseUnit) : PulseEnds := match u with
      | .counts => ⟨some (serial + d), none⟩
      | .ticks => ⟨none, some (min (2 ^ 64 - 1) (stamp + d))⟩
    (s.line n).fromList = ⟨act, serial, stamp⟩ :: rest →
    (∀ m ms, l.fromAxis = m :: ms → LineMsg.count serial ∈ ms →
      exec (.lineFireAction n) s = exec (.lineFireAction n) { s with lines := s.lines.set n ((s.line n).takeAxisMsg m) }) ∧
    (LineMsg.count serial ∉ l.fromAxis.tail →
    (l.state = .forced ∨ l.state = .undriven → becomes l.state l.tick) ∧
    (l.state = .inactive ∨ l.state = .active →
      (act = .set → becomes .active l.tick) ∧ (act = .clear → becomes .inactive l.tick) ∧
      (act = .toggle → becomes (if l.state = .active then .inactive else .active) l.tick) ∧
      (∀ d u, act = .pulse d u → becomes (.pulsing (newEnd d u)) false)) ∧
    (∀ h, l.state = .pulsing h →
      (act = .set → becomes .active false) ∧ (act = .clear ∨ act = .toggle → becomes .inactive false) ∧
      (∀ d u, act = .pulse d u →
        (l.retrigger = .restart → becomes (.pulsing (newEnd d u)) false) ∧
        (l.retrigger = .extend → u = .counts → becomes (.pulsing ⟨some (max (h.serial.getD 0) (serial + d)), h.tick⟩) l.tick) ∧
        (l.retrigger = .extend → u = .ticks →
          let z := max (h.tick.getD 0) (min (2 ^ 64 - 1) (stamp + d))
          becomes (.pulsing ⟨h.serial, some z⟩) (l.tick && decide (some z = h.tick))) ∧
        (l.retrigger = .ignore → exec (.lineFireAction n) s = .next { s with
          lines := s.lines.set n { l with suppressed := min (2 ^ 32 - 1) (l.suppressed + 1) } })))) ∧
    (∀ t, exec (.lineFireAction n) s = .next t → (s.line n).actAll = (t.line n).actAll) ∧
    (∀ x : Line, (x.fromList = [] → x.actAll = x) ∧
      (x.state = .undriven ∨ x.state = .inactive → x.driven = false) ∧
      (x.state = .active ∨ (∃ h, x.state = .pulsing h) → x.driven = true) ∧
      (x.config = .disabled → x.pin = none) ∧
      (∀ d, x.config = .host d ∨ (∃ a, x.config = .compare a d) →
        (x.state = .forced → x.driven = d.safe) ∧
        (d.polarity = .normal → x.pin = some x.driven) ∧ (d.polarity = .inverted → x.pin = some (!x.driven))))

/-- PULSE_END_COUNT and PULSE_END_TICK: an end reached is removed, and the line is INACTIVE once it holds none; a count with a
lower serial or in another state, or a tick before the end or before any tick since it was set, changes nothing. Before the line
takes a count event, the list of its axis takes the count events before it that the list has not yet taken, and then the line
the fire actions of count events before it, so that a pulse in counts ends at its end serial whichever way the events come.
Model's choices: logs 4, 5 and 45. -/
def Obligations.PulsesEndWhenNoEndIsLeft : Prop :=
  ∀ (s : State) (n : LineId) (k : Nat) (rest : List LineMsg),
    let x := s.line n
    let l : Line := { x with fromAxis := rest }
    let earlier (j : Nat) : Prop := j < k ∧ LineMsg.count j ∉ rest
    let judged : Prop := ∀ a d, x.config = .compare a d → ∀ c, ListMsg.count c ∈ (s.clist a).inbox → ¬earlier c.serial
    let leaves (st : LineState) (tick : Bool) : Prop :=
      exec (.pulseEndCount n) s = .next { s with lines := s.lines.set n { l with state := st, tick := tick } }
    (x.fromAxis = .count k :: rest →
      (judged → (∀ f fs, x.fromList = f :: fs → ¬earlier f.serial) →
        exec (.pulseEndCount n) s = .next { s with lines := s.lines.set n (x.takeAxisMsg (.count k)) } ∧
        ((∀ h, x.state ≠ .pulsing h) → leaves x.state x.tick) ∧
        (∀ h, x.state = .pulsing h →
          (∀ z, h.serial = some z → z ≤ k → h.tick = none → leaves .inactive false) ∧
          (∀ z t, h.serial = some z → z ≤ k → h.tick = some t → leaves (.pulsing ⟨none, some t⟩) x.tick) ∧
          (∀ z, h.serial = some z → k < z → leaves x.state x.tick) ∧
          (h.serial = none → leaves x.state x.tick))) ∧
      (∀ f fs t, judged → x.fromList = f :: fs → earlier f.serial → exec (.lineFireAction n) s = .next t →
        exec (.pulseEndCount n) s = exec (.pulseEndCount n) t) ∧
      (∀ a d m ms t, x.config = .compare a d → (s.clist a).inbox = m :: ms →
        (∃ c, ListMsg.count c ∈ m :: ms ∧ earlier c.serial) → (∀ c, m = .count c → earlier c.serial) →
        (∀ f ∈ x.fromList, LineMsg.count f.serial ∉ rest) →
        exec (match m with
          | .count _ => .listCountEvent a
          | .freeze => .listFreeze a
          | .unfreeze => .listUnfreeze a) s = .next t →
        exec (.pulseEndCount n) s = exec (.pulseEndCount n) t)) ∧
    (∀ h t, x.state = .pulsing h → h.tick = some t →
      (t ≤ s.ts → x.tick = true → exec (.pulseEndTick n) s = .next { s with lines := s.lines.set n { x with
        state := if h.serial = none then .inactive else .pulsing ⟨h.serial, none⟩, tick := false } }) ∧
      (s.ts < t ∨ x.tick = false → exec (.pulseEndTick n) s = .next s))

/-- LINE_AXIS_STOP, LINE_AXIS_HELD, LINE_AXIS_RESUMED, HOLD_IN_ASSERT_LINE and HOLD_IN_DEASSERT_LINE. Model's choices: log 4. -/
def Obligations.LineFollowsItsAxisAndHoldIn : Prop :=
  ∀ (s : State) (n : LineId) (rest : List LineMsg),
    let l : Line := { s.line n with fromAxis := rest }
    let x := s.line n
    (∀ m, (s.line n).fromAxis = m :: rest → (∀ k, m ≠ .count k) → exec (match m with
        | .stop => .lineAxisStop n
        | .held => .lineAxisHeld n
        | _ => .lineAxisResumed n) s = .next { s with lines := s.lines.set n (x.takeAxisMsg m) }) ∧
    ((s.line n).fromAxis = .stop :: rest → exec (.lineAxisStop n) s = .next { s with
      lines := s.lines.set n (match l.state with
        | .pulsing h => if h.serial.isSome then { l with state := .inactive, tick := false } else l
        | _ => l) }) ∧
    ((s.line n).fromAxis = .held :: rest → exec (.lineAxisHeld n) s = .next { s with
      lines := s.lines.set n { l with axisHeld := true, state := .forced, tick := false } }) ∧
    ((s.line n).fromAxis = .resumed :: rest → exec (.lineAxisResumed n) s = .next { s with
      lines := s.lines.set n { l with axisHeld := false, state := .inactive, tick := false } }) ∧
    (exec (.holdInAssertLine n) s = .next { s with
      pins := { s.pins with holdIn := true }
      lines := s.lines.set n (if x.isHost = true then { x with holdIn := true, state := .forced, tick := false }
        else { x with holdIn := true }) }) ∧
    (exec (.holdInDeassertLine n) s = .next { s with
      pins := { s.pins with holdIn := false }
      lines := s.lines.set n (if x.isHost = true ∧ x.state = .forced ∧ x.tripCount = 0
        then { x with holdIn := false, state := .inactive } else { x with holdIn := false }) })

/-- LINE_TRIP_NOTICE and LINE_RELEASE_NOTICE: the trip count, the forcing of a HOST line, and the hold request that a COMPARE
line passes to the axis it is bound to. Model's choices: log 4. -/
def Obligations.LineTakesTripNotices : Prop :=
  ∀ (s : State) (n : LineId) (rest : List TripMsg),
    let l : Line := { s.line n with fromMonitor := rest }
    (l.fromMonitor = rest) ∧
    ((s.line n).fromMonitor = .trip :: rest →
      (l.config = .disabled → exec (.lineTripNotice n) s = .next { s with
        lines := s.lines.set n { l with tripCount := l.tripCount + 1 } }) ∧
      (∀ d, l.config = .host d → exec (.lineTripNotice n) s = .next { s with
        lines := s.lines.set n { l with tripCount := l.tripCount + 1, state := .forced, tick := false } }) ∧
      (∀ a d, l.config = .compare a d → exec (.lineTripNotice n) s = .next { s with
        lines := s.lines.set n { l with tripCount := l.tripCount + 1 }
        axes := s.axes.set a { s.axis a with holdReqs := (s.axis a).holdReqs ++ [.trip] } })) ∧
    ((s.line n).fromMonitor = .release :: rest → exec (.lineReleaseNotice n) s = .next { s with
      lines := s.lines.set n { l with
        tripCount := l.tripCount - 1
        state := if l.isHost = true ∧ l.state = .forced ∧ l.holdIn = false ∧ l.tripCount - 1 = 0 then .inactive else l.state } })

/-- LINE_HOST_WRITE: LINE_MODE, LINE_TRIPPED, or the action carried out, with its ack. Model's choices: log 3. -/
def Obligations.HostWriteReachesTheLine : Prop :=
  ∀ (s : State) (p : PairId) (kd : Byte) (ck : W32) (n : LineId) (act : Action),
    s.proc p = .busy kd ck (.writing n act) →
    ((s.line n).isHost = false → exec (.lineHostWrite p) s = .next (s.withAck p kd ck .lineMode 0 s.ts)) ∧
    ((s.line n).isHost = true → (s.line n).state = .forced →
      exec (.lineHostWrite p) s = .next (s.withAck p kd ck .lineTripped 0 s.ts)) ∧
    ((s.line n).isHost = true → (s.line n).state ≠ .forced →
      (exec (.lineHostWrite p) s = .next
        { s.withAck p kd ck .ok 0 s.ts with lines := s.lines.set n ((s.line n).act ⟨act, 0, s.ts⟩) }) ∧
      (act = .set → (s.line n).state = .inactive ∨ (s.line n).state = .active → exec (.lineHostWrite p) s = .next
        { s.withAck p kd ck .ok 0 s.ts with lines := s.lines.set n { s.line n with state := .active } }) ∧
      (act = .clear → (s.line n).state = .inactive ∨ (s.line n).state = .active → exec (.lineHostWrite p) s = .next
        { s.withAck p kd ck .ok 0 s.ts with lines := s.lines.set n { s.line n with state := .inactive } }) ∧
      (∀ d, act = .pulse d .ticks → (s.line n).state = .inactive ∨ (s.line n).state = .active →
        exec (.lineHostWrite p) s = .next { s.withAck p kd ck .ok 0 s.ts with lines := s.lines.set n { s.line n with
          state := .pulsing ⟨none, some (min (2 ^ 64 - 1) (s.ts + d))⟩, tick := false } }))

/-! ## Capture channels -/

/-- CAPTURE_EDGE: rejected in LOCKOUT or outside the window; otherwise latched with the lockout started, and then the HELD flag,
the oldest closed batch handed to the list, or the UNCLAIMED count. Model's choices: logs 4 and 46. -/
def Obligations.CaptureEdgeLatchesAndHandsOver : Prop :=
  ∀ (s : State) (c : ChanId) (g : ChanConfig),
    let x := s.chan c
    let ax := s.axis g.axis
    let level := !x.ref
    let pins := { s.pins with cin := s.pins.cin.set g.input level }
    let latched : Channel := { x with
      ref := level, last := some ⟨ax.position, ax.serial, s.ts⟩
      state := if g.lockout = 0 then .accepting else .lockout (ax.serial + g.lockout) }
    let notice (activated : Nat) (held unclaimed : Bool) : List Notice :=
      if g.report then [.capture c ax.position activated held unclaimed ax.serial s.ts] else []
    let reject : Prop := x.inLockout = true ∨ g.inWindow ax.isRotary ax.position = false
    x.config = some g → g.edge.takes level = true → ax.counting = true →
    (reject → exec (.captureEdge c level) s = .next { s with
      channels := s.channels.set c { x with ref := level, rejected := min (2 ^ 32 - 1) (x.rejected + 1) }, pins := pins }) ∧
    (¬reject → ax.isHeld = true → exec (.captureEdge c level) s = .next { s with
      channels := s.channels.set c latched, pins := pins, nqReq := s.nqReq ++ notice 0 true false }) ∧
    (¬reject → ax.isHeld = false → ∀ b rest, x.closed = b :: rest → exec (.captureEdge c level) s = .next { s with
      channels := s.channels.set c { latched with closed := rest }
      lists := s.lists.set g.axis { s.clist g.axis with
        activations := (s.clist g.axis).activations ++ [⟨ax.position, s.ts, b.entries⟩] }
      pins := pins, nqReq := s.nqReq ++ notice b.entries.length false false }) ∧
    (¬reject → ax.isHeld = false → x.closed = [] → exec (.captureEdge c level) s = .next { s with
      channels := s.channels.set c { latched with unclaimed := min (2 ^ 32 - 1) (x.unclaimed + 1) }
      pins := pins, nqReq := s.nqReq ++ notice 0 false true })

/-- The window test of a latched position, by the order of the bounds and the kind of the axis; and a channel whose bounds let
no position in rejects every edge on a counting axis. -/
def Obligations.WindowTestOfALatchedPosition : Prop :=
  ∀ (g : ChanConfig) (rotary : Bool) (p lo hi : Int),
    (g.window = none → g.inWindow rotary p = true) ∧
    (g.window = some (lo, hi) →
      (lo ≤ hi → (g.inWindow rotary p = true ↔ lo ≤ p ∧ p ≤ hi)) ∧
      (hi < lo → (g.inWindow true p = true ↔ lo ≤ p ∨ p ≤ hi)) ∧ (hi < lo → g.inWindow false p = false)) ∧
    (∀ (s : State) (c : ChanId) (level : Bool), (s.chan c).config = some g → g.window = some (lo, hi) → hi < lo →
      (s.axis g.axis).isRotary = false → (s.axis g.axis).counting = true → level = !(s.chan c).ref → g.edge.takes level = true →
      exec (.captureEdge c level) s = .next { s with
        channels := s.channels.set c
          { s.chan c with ref := level, rejected := min (2 ^ 32 - 1) ((s.chan c).rejected + 1) }
        pins := { s.pins with cin := s.pins.cin.set g.input level } })

/-- LOCKOUT_END, CHANNEL_AXIS_CONFIG and INPUT_REFERENCE_UPDATE. Model's choices: logs 1, 4 and 46. -/
def Obligations.ChannelFollowsItsAxisAndInput : Prop :=
  ∀ (s : State) (c : ChanId) (k : Nat) (rest : List ChanMsg) (i : InputId) (level : Bool),
    let x : Channel := { s.chan c with inbox := rest }
    ((s.chan c).inbox = .count k :: rest → exec (.lockoutEnd c) s = .next { s with
      channels := s.channels.set c (match x.state with
        | .lockout z => if z ≤ k then { x with state := .accepting } else x
        | _ => x) }) ∧
    ((s.chan c).inbox = .axisConfig :: rest → exec (.channelAxisConfig c) s = .next { s with
      channels := s.channels.set c (match x.state with
        | .lockout _ => { x with state := .accepting }
        | _ => x) }) ∧
    (∃ t, exec (.inputReferenceUpdate i level) s = .next t ∧ t = { s with channels := t.channels, pins := t.pins } ∧
      t.pins = { s.pins with cin := s.pins.cin.set i level } ∧
      ∀ d, t.chan d = { s.chan d with ref := (t.chan d).ref } ∧
        (∀ g, (s.chan d).config = some g → g.input = i →
          (t.chan d).ref = if (level != (s.chan d).ref) = true ∧ g.edge.takes level = true ∧ (s.axis g.axis).counting = true
            then (s.chan d).ref else level) ∧
        ((s.chan d).config = none → t.chan d = s.chan d) ∧
        (∀ g, (s.chan d).config = some g → g.input ≠ i → t.chan d = s.chan d))

/-- APPEND: its tests in order, the entry appended to the pair's open batch, and the close. Model's choices: log 3. -/
def Obligations.AppendBuildsTheOpenBatch : Prop :=
  ∀ (s : State) (p : PairId) (kd : Byte) (ck : W32) (w : Waiting) (c : ChanId) (close : Bool),
    let x := s.chan c
    let refused (y : Channel) (st : Status) : State :=
      ({ s with channels := s.channels.set c y } : State).afterReleases [w.entry] |>.withAck p kd ck st 0 s.ts
    let accepted (b : Batch) : State := { s.withAck p kd ck .ok 0 s.ts with
      channels := s.channels.set c
        (if close then { x with openBatch := none, closed := x.closed ++ [b] } else { x with openBatch := some b }) }
    let full := close = true ∧ 16 ≤ x.closed.length
    s.proc p = .busy kd ck (.appending w c close) →
    (x.boundTo w.entry.axis = false → exec (.append p) s = .next (refused x .lineAxis)) ∧
    (x.boundTo w.entry.axis = true →
      (∀ b, x.openBatch = some b → b.owner ≠ p → exec (.append p) s = .next (refused x .channelOpenElsewhere)) ∧
      (∀ b, x.openBatch = some b → b.owner = p → full → exec (.append p) s = .next (refused x .queueFull)) ∧
      (∀ b, x.openBatch = some b → b.owner = p → ¬full → 64 ≤ b.entries.length → exec (.append p) s = .next
        (refused (if close then { x with openBatch := none, closed := x.closed ++ [b] } else x) .batchFull)) ∧
      (∀ b, x.openBatch = some b → b.owner = p → ¬full → b.entries.length < 64 →
        exec (.append p) s = .next (accepted { b with entries := b.entries ++ [w] })) ∧
      (x.openBatch = none → full → exec (.append p) s = .next (refused x .queueFull)) ∧
      (x.openBatch = none → ¬full → exec (.append p) s = .next (accepted ⟨p, [w]⟩)))

/-- CHANNEL_CANCEL, CHANNEL_CANCEL_AXIS and CHANNEL_DISCARD_PAIR: the entries and batches that leave the channel, and the number
answered. Model's choices: log 17. -/
def Obligations.ChannelRemovalsReachTheirScope : Prop :=
  ∀ (s : State) (c : ChanId) (p : PairId) (kd : Byte) (ck : W32) (rm : Removing), Block.channel c ∈ rm.todo →
    let x := s.chan c
    let gone (reaches : Entry → Bool) : List Entry := x.waiting.filter reaches
    let removed (y : Channel) (reaches : Entry → Bool) : State :=
      { s.afterReleases (gone reaches) with channels := s.channels.set c y }
    let answered (n stamp : Nat) : Removing :=
      { rm with todo := rm.todo.erase (.channel c), answers := rm.answers ++ [(n, stamp)] }
    let excluded (q : PairId) (ph : Removing → Phase) : State :=
      { s with procs := s.procs.set q (.busy kd ck (ph (answered 0 0))) }
    (∀ scope restrict, s.proc p = .busy kd ck (.cancelling scope restrict rm) →
      let reaches (e : Entry) : Bool := e.owner == p && match scope with
        | .tag t => e.tag == t
        | .group g => e.group == g
        | .all => true
      let keep (b : Batch) : Batch := { b with entries := b.entries.filter fun w => !reaches w.entry }
      let t := removed { x with
        openBatch := x.openBatch.map keep, closed := (x.closed.map keep).filter fun b => !b.entries.isEmpty } reaches
      (restrict = none ∨ (∃ a, restrict = some a ∧ x.boundTo a = true) → exec (.channelCancel c p) s = .next { t with
        procs := t.procs.set p (.busy kd ck (.cancelling scope restrict (answered (gone reaches).length s.ts))) }) ∧
      (∀ a, restrict = some a → x.boundTo a = false →
        exec (.channelCancel c p) s = .next (excluded p (.cancelling scope restrict)))) ∧
    (∀ a, s.proc 0 = .busy kd ck (.cancellingAxis a rm) →
      let t := removed { x with openBatch := none, closed := [] } fun _ => true
      (x.boundTo a = true → exec (.channelCancelAxis c) s = .next { t with
        procs := t.procs.set 0 (.busy kd ck (.cancellingAxis a (answered x.waiting.length s.ts))) }) ∧
      (x.boundTo a = false → exec (.channelCancelAxis c) s = .next (excluded 0 (.cancellingAxis a)))) ∧
    (∀ z, s.proc 0 = .busy kd ck (.discarding p rm z) →
      let owned (e : Entry) : Bool := e.owner == p
      let n := (gone owned).length
      let t := removed { x with
        openBatch := x.openBatch.filter fun b => b.owner != p, closed := x.closed.filter fun b => b.owner != p } owned
      exec (.channelDiscardPair c) s = .next { t with procs := t.procs.set 0 (.busy kd ck (.discarding p (answered n s.ts)
        (if z = none ∧ 0 < n ∧ s.pool.live[p] ≤ n then some s.ts else z))) })


/-- CHECK_EVENT: once the check deadline has expired, every slot is judged by the table of states on the sample of its kind, the
counters of every axis that a configured slot names are zeroed, the notices, with the stamp of the check, and the requests of
the trips go out in slot order, and the next deadline is set; before that, nothing changes. That both levels of a DISABLED line
show as inactive is the model's choice (log 41). Model's choices: logs 1, 4, 5, 7 and 41. -/
def Obligations.CheckEventJudgesEverySlot : Prop :=
  ∀ (s : State) (fb : Vector Bool 16),
    (s.monitor.deadline = none ∨ s.monitor.enable = false ∨ s.monitor.expired = false → exec (.checkEvent fb) s = .next s) ∧
    (let value (x : Sample) (present : Prop) (v : Nat) : Prop := (x.present = true ↔ present) ∧ x.value = v;
      (∀ a z, value (s.sample fb (.overspeed a z)) ((s.axis a).counting = true ∧ z < (s.axis a).moved) (s.axis a).moved) ∧
      (∀ a z, value (s.sample fb (.quadError a z)) (z < (s.axis a).illegal) (s.axis a).illegal) ∧
      (∀ a, value (s.sample fb (.indexSpacing a)) ((s.axis a).spacingError = true)
        (if (s.axis a).spacingError = true then 1 else 0)) ∧
      (∀ n : LineId, let l := s.line n;
        let bits (driven feedback disabled : Bool) : Nat := driven.toNat + 2 * feedback.toNat + 4 * disabled.toNat;
        (l.config = .disabled → value (s.sample fb (.lineFeedback n)) False (bits l.driven l.driven true)) ∧
        (∀ d, l.config = .host d ∨ (∃ a, l.config = .compare a d) →
          (d.feedback = none → value (s.sample fb (.lineFeedback n)) False (bits l.driven l.driven false)) ∧
          (d.feedback = some .normal →
            value (s.sample fb (.lineFeedback n)) (fb[n] ≠ l.driven) (bits l.driven fb[n] false)) ∧
          (d.feedback = some .inverted →
            value (s.sample fb (.lineFeedback n)) (fb[n] = l.driven) (bits l.driven (!fb[n]) false))))) ∧
    (∀ d, s.monitor.deadline = some d → s.monitor.enable = true → s.monitor.expired = true →
      ∃ t, exec (.checkEvent fb) s = .next t ∧
      t = { s with
        slots := t.slots, axes := t.axes, lines := t.lines, nqReq := t.nqReq, pins := { s.pins with fb := fb }
        monitor := { s.monitor with deadline := some (min (2 ^ 64 - 1) (d + 1000 * s.monitor.period)), expired := false } } ∧
      (∀ m, t.slot m = match (s.slot m).config with
        | none => { s.slot m with opening := false }
        | some g =>
          if (s.slot m).opening = true then { s.slot m with opening := false }
          else
            let x := s.sample fb g.kind
            let y : Slot := { s.slot m with
              presentRun := if x.present = true then min 255 ((s.slot m).presentRun + 1) else 0
              absentRun := if x.present = true then 0 else min 255 ((s.slot m).absentRun + 1)
              last := some x }
            match (s.slot m).state with
            | .off => y
            | .clear => if x.present = true then { y with state := if g.qualify ≤ 1 then .tripped else .pending } else y
            | .pending => { y with
                state := if x.present = true then (if g.qualify ≤ y.presentRun then .tripped else .pending) else .clear }
            | .tripped => match g.severity with
              | .warn r => if x.present = false ∧ r ≤ y.absentRun then { y with state := .clear, presentRun := 0, absentRun := 0 }
                else y
              | _ => y) ∧
      (let trips (m : SlotId) : Bool := decide ((s.slot m).state ≠ .tripped) && decide ((t.slot m).state = .tripped)
        let recovers (m : SlotId) : Bool := decide ((s.slot m).state = .tripped) && decide ((t.slot m).state ≠ .tripped)
        let sends (m : SlotId) (k : SlotKind → Bool) : Bool := trips m && match (s.slot m).config with
          | some g => decide (g.severity = .hold ∨ g.severity = .latch) && k g.kind
          | none => false
        (∀ a, t.axis a = { s.axis a with
          moved := if s.axisWatched a = true then 0 else (s.axis a).moved
          illegal := if s.axisWatched a = true then 0 else (s.axis a).illegal
          holdReqs := (s.axis a).holdReqs ++
            List.replicate ((List.finRange 24).countP fun m => sends m fun k => k.axis == some a) .trip }) ∧
        (∀ n, t.line n = { s.line n with
          fromMonitor := (s.line n).fromMonitor ++
            List.replicate ((List.finRange 24).countP fun m => sends m fun k => k.line == some n) .trip }) ∧
        (∀ a, s.axisWatched a = true ↔ ∃ m g, (s.slot m).config = some g ∧ g.kind.axis = some a) ∧
        (∀ a n z, (SlotKind.overspeed a z).axis = some a ∧ (SlotKind.quadError a z).axis = some a ∧
          (SlotKind.indexSpacing a).axis = some a ∧ (SlotKind.lineFeedback n).axis = none ∧ (SlotKind.overspeed a z).line = none ∧
          (SlotKind.quadError a z).line = none ∧ (SlotKind.indexSpacing a).line = none ∧
          (SlotKind.lineFeedback n).line = some n) ∧
        t.nqReq = s.nqReq ++ (List.finRange 24).filterMap fun m => match (s.slot m).config with
          | some g =>
            if trips m = true then some (.monitorTripped m g (s.sample fb g.kind).value (t.slot m).presentRun s.ts)
            else if recovers m = true
              then some (.monitorRecovered m g (s.sample fb g.kind).value (min 255 ((s.slot m).absentRun + 1)) s.ts)
            else none
          | none => none))

/-- MONITOR_CONFIG, MONITOR_RELEASE and MONITOR_GLOBAL, with their refusals. Model's choices: logs 3, 4 and 5. -/
def Obligations.MonitorRecordsSetTheirSlots : Prop :=
  ∀ (s : State) (r : Record) (p : PairId),
    let m := r.slotAt 8
    (s.Takes r .monitorConfig p → exec (.monitorConfig r) s = .next
      (if (s.slot m).state = .tripped then s.recordAnswered p r .monitorTripped 0 s.ts
      else { s.recordAnswered p r .ok 0 s.ts with
        slots := s.slots.set m
          (if r.flag 0 = true then ⟨some r.slotConfig, .clear, 0, 0, none, true⟩ else ⟨none, .off, 0, 0, none, false⟩) })) ∧
    (s.Takes r .monitorRelease p → (s.slot m).state ≠ .tripped →
      exec (.monitorRelease r) s = .next (s.recordAnswered p r .ok 0 s.ts)) ∧
    (∀ g, s.Takes r .monitorRelease p → (s.slot m).state = .tripped → (s.slot m).config = some g →
      (g.severity = .latch → exec (.monitorRelease r) s = .next (s.recordAnswered p r .monitorLatched 0 s.ts)) ∧
      (∀ v, g.severity ≠ .latch → (s.slot m).last = some ⟨true, v⟩ →
        exec (.monitorRelease r) s = .next (s.recordAnswered p r .conditionPresent 0 s.ts)) ∧
      (∀ v, g.severity ≠ .latch → (s.slot m).last = some ⟨false, v⟩ →
        exec (.monitorRelease r) s = .next { s.recordAnswered p r .ok 0 s.ts with
          slots := s.slots.set m { s.slot m with state := .clear, presentRun := 0, absentRun := 0 }
          lines := match g.severity, g.kind with
            | .hold, .lineFeedback n => s.lines.set n { s.line n with fromMonitor := (s.line n).fromMonitor ++ [.release] }
            | _, _ => s.lines })) ∧
    (s.Takes r .monitorGlobal p →
      let on := r.flag 0
      let period := r.u16 8
      let due := min (2 ^ 64 - 1) (s.ts + 1000 * period)
      ∃ t, exec (.monitorGlobal r) s = .next t ∧
      t = { s.recordAnswered p r .ok 0 s.ts with slots := t.slots, monitor := t.monitor } ∧
      t.monitor = (if on = true then ⟨true, period, some due, false⟩
        else if s.monitor.enable = true then ⟨false, period, none, false⟩
        else { s.monitor with period := period }) ∧
      ∀ m, t.slot m =
        if on = true ∧ s.monitor.enable = false ∧ (s.slot m).config.isSome = true then { s.slot m with opening := true }
        else if on = false ∧ s.monitor.enable = true ∧ (s.slot m).state = .pending
          then { s.slot m with state := .clear, presentRun := 0 }
        else s.slot m)

/-- A tripped slot of severity LATCH stays tripped, with its configuration, through every command but a reset. -/
def Obligations.LatchLastsUntilReset : Prop :=
  ∀ (c : Instr) (s t : State) (m : SlotId) (g : SlotConfig),
    s.Latched m g → c.isReset = false → exec c s = .next t → t.Latched m g

/-! ## The Ring Engine -/

/-- FETCH_GRANT, with the condition of a request and the choice among the pairs that request; FETCH_BUS_ERROR; and
FETCH_READ_DISCARDED. Model's choices: logs 1 and 3. -/
def Obligations.FetchEngineServesThePairs : Prop :=
  ∀ s : State,
    (∀ p, s.wantsFetch p = true ↔ s.enable = true ∧ ((s.pair p).state = .active ∧ s.stopped p = false) ∧
      (s.pair p).sqPost ≠ (s.pair p).sqHead ∧ (s.granted p = false ∧ s.proc p = .idle) ∧ 1 ≤ (s.pair p).free) ∧
    (let granted (p last : PairId) : State := { s with
        engine := some ⟨p, (s.pair p).sqBase + BitVec.ofNat 64 (64 * (s.pair p).sqHead)⟩
        pairs := s.pairs.set p { s.pair p with reserved := true }
        lastServed := last }
      let turns (p : PairId) : Nat := (p.val + 7 - s.lastServed.val) % 8
      (s.engine = none →
        (s.wantsFetch 0 = true → exec .fetchGrant s = .next (granted 0 s.lastServed)) ∧
        (∀ p, s.wantsFetch 0 = false → p ≠ 0 → s.wantsFetch p = true →
          (∀ q, q ≠ 0 → s.wantsFetch q = true → turns p ≤ turns q) → exec .fetchGrant s = .next (granted p p)) ∧
        ((∀ p, s.wantsFetch p = false) → exec .fetchGrant s = .next s)) ∧
      (∀ e, s.engine = some e → exec .fetchGrant s = .next s)) ∧
    State.reset.lastServed = 8 ∧
    (∀ p addr, s.engine = some ⟨p, addr⟩ →
      let ended : State := { s with engine := none, pairs := s.pairs.set p { s.pair p with reserved := false } }
      exec .fetchBusError s = .next (if p = 0 then ended.setFault .fetchError else ended.setCause p .fetchError) ∧
      (s.stopped p = true → exec .fetchReadDiscarded s = .next ended))

/-- POST_COMPLETION and POST_NOTICE: an ack takes the reserved slot, a report or a notice a free one, or is lost and counted;
for a ring that is stopped, in ERROR, ABSENT or UNSET nothing is written. Model's choices: logs 3, 14 and 32. -/
def Obligations.RingsTakePostingRequests : Prop :=
  ∀ (s : State) (p : PairId) (q : CqRequest) (rest : List CqRequest) (n : Notice) (more : List Notice),
    let x := s.pair p
    let next := (x.cqWrite + 1) % x.cqSize
    let taken (y : Pair) : State := { s with pairs := s.pairs.set p y, cqReq := s.cqReq.set p rest }
    let written (y : Pair) : State := { taken { y with cqWrite := next, pendLost := 0 } with
      writeQ := s.writeQ ++ [.record (.cq p) x.cqWrite next (q.bytes (min 65535 x.pendLost))] }
    let counted (c : Nat) : Nat := min (2 ^ 32 - 1) (c + 1)
    (s.requests p = q :: rest → x.state ≠ .absent →
      (q.isAck = true →
        (s.stopped p = false → exec (.postCompletion p) s = .next
          { written { x with reserved := false } with procs := s.procs.set p .idle }) ∧
        (s.stopped p = true → exec (.postCompletion p) s = .next
          { taken { x with reserved := false, totLost := counted x.totLost } with procs := s.procs.set p .idle })) ∧
      (q.isAck = false →
        (s.stopped p = false → 1 ≤ x.free → exec (.postCompletion p) s = .next (written x)) ∧
        (s.stopped p = false → x.free = 0 → exec (.postCompletion p) s = .next
          (taken { x with pendLost := counted x.pendLost, totLost := counted x.totLost })) ∧
        (s.stopped p = true → exec (.postCompletion p) s = .next (taken { x with totLost := counted x.totLost })))) ∧
    (s.requests p = q :: rest → x.state = .absent → q.isAck = false → exec (.postCompletion p) s = .next (taken x)) ∧
    (s.nqReq = n :: more →
      let y := s.nq
      let after := (y.write + 1) % y.size
      (y.state = .unset → exec .postNotice s = .next { s with nqReq := more }) ∧
      (y.state = .error →
        exec .postNotice s = .next { s with nqReq := more, nq := { y with totLost := counted y.totLost } }) ∧
      (y.state = .active → 1 ≤ y.free → exec .postNotice s = .next { s with
        nqReq := more, nq := { y with write := after, pendLost := 0 }
        writeQ := s.writeQ ++ [.record .nq y.write after (n.bytes (min 65535 y.pendLost))] }) ∧
      (y.state = .active → y.free = 0 → exec .postNotice s = .next { s with
        nqReq := more, nq := { y with pendLost := counted y.pendLost, totLost := counted y.totLost } }))

/-- WRITE_ISSUE, RECORD_WRITE_DONE, RECORD_WRITE_ERROR, STATUS_BLOCK_WRITE_DONE and STATUS_BLOCK_WRITE_ERROR: the order of the
writes and their addresses, the tail write that follows a record, the published tail, the errors, and the answers of writes
whose ring is gone, which move no index, though an admin record's error and a status block write's still set FAULT. Model's
choices: logs 11, 12, 13, 28, 37 and 38. -/
def Obligations.WritesMoveTheIndices : Prop :=
  ∀ s : State,
    (∀ w rest, s.onBus = none → s.writeQ = w :: rest →
      exec .writeIssue s = .next { s with writeQ := rest, onBus := some ⟨w, s.writeAddr w, false⟩ }) ∧
    (∀ (p : PairId) (slot next : Nat) (data : List Byte) (v : Nat) (publishes : Bool) (buffer : W64),
      s.writeAddr (.record (.cq p) slot next data) = (s.pair p).cqBase + BitVec.ofNat 64 (32 * slot) ∧
      s.writeAddr (.record .nq slot next data) = s.nq.base + BitVec.ofNat 64 (32 * slot) ∧
      s.writeAddr (.head p v) = s.sbBase + BitVec.ofNat 64 (16 * p.val) ∧
      s.writeAddr (.tail (.cq p) v publishes) = s.sbBase + BitVec.ofNat 64 (16 * p.val + 2) ∧
      s.writeAddr (.tail .nq v publishes) = s.sbBase + 144 ∧ s.writeAddr (.snapshot buffer data) = buffer) ∧
    (∀ ring slot next data addr, s.onBus = some ⟨.record ring slot next data, addr, false⟩ →
      exec .recordWriteDone s = .next { s with onBus := none, writeQ := s.writeQ ++ [.tail ring next true] } ∧
      (∀ p : PairId, ring = .cq p →
        let counted : State := { s with
          onBus := none
          pairs := s.pairs.set p { s.pair p with totLost := min (2 ^ 32 - 1) ((s.pair p).totLost + 1) } }
        exec .recordWriteError s = .next (if p = 0 then counted.setFault .postError else counted.setCause p .postError)) ∧
      (ring = .nq → ∃ t, exec .recordWriteError s = .next t ∧ t.nq.state = .error ∧
        t = { s with onBus := none, nq := { s.nq with state := .error, totLost := t.nq.totLost }, writeQ := t.writeQ } ∧
        t.nq.totLost = min (2 ^ 32 - 1) (s.nq.totLost + 1 + (s.writeQ.filter fun w => w.recordOf .nq).length) ∧
        t.writeQ = s.writeQ.filter fun w => !w.recordOf .nq)) ∧
    (∀ p v addr stale, s.onBus = some ⟨.head p v, addr, stale⟩ →
      exec .statusBlockWriteDone s = .next { s with onBus := none } ∧
      exec .statusBlockWriteError s = .next (({ s with onBus := none } : State).setFault .statusWrite)) ∧
    (∀ ring v addr publishes, s.onBus = some ⟨.tail ring v publishes, addr, false⟩ →
      let answered : State := { s with
        onBus := none
        pairs := match ring with
          | .cq p => if publishes = true then s.pairs.set p { s.pair p with cqPub := v } else s.pairs
          | .nq => s.pairs
        nq := if ring = .nq ∧ publishes = true then { s.nq with pub := v } else s.nq }
      exec .statusBlockWriteDone s = .next answered ∧
      exec .statusBlockWriteError s = .next (answered.setFault .statusWrite)) ∧
    (∀ w addr, s.onBus = some ⟨w, addr, true⟩ →
      let ended : State := { s with onBus := none }
      (∀ ring slot next data, w = .record ring slot next data →
        exec .recordWriteDone s = .next ended ∧ (ring ≠ .cq 0 → exec .recordWriteError s = .next ended) ∧
        (ring = .cq 0 → exec .recordWriteError s = .next (({ ended with
          pairs := s.pairs.set 0 { s.pair 0 with totLost := min (2 ^ 32 - 1) ((s.pair 0).totLost + 1) } } : State).setFault
            .postError))) ∧
      (∀ ring v publishes, w = .tail ring v publishes → exec .statusBlockWriteDone s = .next ended ∧
        exec .statusBlockWriteError s = .next (ended.setFault .statusWrite)))

/-- Every completion ring and the notice ring keep their indices in order, with the reservation's slot free, through every step.
Model's choices: logs 3 and 34. -/
def Obligations.RingsStayInOrder : Prop :=
  ∀ s t : State, s.OneRecord → s.RingsInOrder → step s = .next t → t.RingsInOrder

/-- A completion record and a notice are 32 bytes and a snapshot 64, and each shows its fields at their offsets and 0 in every
other byte; the bytes of a completion record tell its lost count and every field of it; and the codes of the fields. That a LINE
snapshot shows FBn as it is where feedback is off or the line DISABLED (log 19), and a DISABLED line's driven level inactive
(log 41), is the model's choice. Model's choices: logs 19, 29 and 41. -/
def Obligations.WrittenBytesTellTheirRecord : Prop :=
  let fits (q : CqRequest) : Prop := match q with
    | .ack k => k.detail < 2 ^ 32 ∧ k.stamp < 2 ^ 64
    | .fire f => -(2 ^ 31) ≤ f.pos ∧ f.pos < 2 ^ 31 ∧ f.occurrence < 2 ^ 16 ∧ f.serial < 2 ^ 64 ∧ f.stamp < 2 ^ 64
    | .retire r => -(2 ^ 31) ≤ r.pos ∧ r.pos < 2 ^ 31 ∧ r.occurrence < 2 ^ 16 ∧ r.serial < 2 ^ 64 ∧ r.stamp < 2 ^ 64
  (∀ (q : CqRequest) (lost : Nat), Shows (q.bytes lost) 32 (q.fields lost)) ∧
  (∀ (q q' : CqRequest) (lost lost' : Nat), fits q → fits q' → lost < 2 ^ 16 → lost' < 2 ^ 16 →
    q.bytes lost = q'.bytes lost' → q = q' ∧ lost = lost') ∧
  (∀ (n : Notice) (lost : Nat), Shows (n.bytes lost) 32 (n.fields lost)) ∧
  (∀ (s : State) (o : QueryOf), Shows (s.snapshotOf o) 64 (s.fieldsOf o)) ∧
  (([.ok, .lateFired, .passed, .crowded, .notFound, .poolEmpty, .quotaFull, .badKind, .badField, .notConfigured, .axisState,
      .axisHasEntries, .axisTripped, .inhibited, .indexMode, .notPending, .lineMode, .lineAxis, .lineInUse, .lineTripped,
      .channelOpenElsewhere, .channelHasEntries, .batchFull, .queueFull, .monitorTripped, .monitorLatched, .conditionPresent,
      .pairExists, .pairAbsent, .pairHasEntries, .timedOut, .aborted, .busError] : List Status).map Status.code =
    List.range 33) ∧
  (Dir.fwd.code = 1 ∧ Dir.rev.code = 2 ∧ Qualifier.fwd.code = 1 ∧ Qualifier.rev.code = 2 ∧ Qualifier.either.code = 3 ∧
    DecodeMode.x1.code = 0 ∧ DecodeMode.x2.code = 1 ∧ DecodeMode.x4.code = 2 ∧ IndexMode.none.code = 0 ∧
    IndexMode.homeOnce.code = 1 ∧ IndexMode.presetEvery.code = 2 ∧ Polarity.normal.code = 0 ∧ Polarity.inverted.code = 1 ∧
    Retrigger.restart.code = 0 ∧ Retrigger.extend.code = 1 ∧ Retrigger.ignore.code = 2 ∧ EdgeKind.rising.code = 0 ∧
    EdgeKind.falling.code = 1 ∧ EdgeKind.both.code = 2) ∧
  (Cause.host.code = 1 ∧ Cause.inhibit.code = 2 ∧ Cause.trip.code = 4 ∧ Cause.overflow.code = 8 ∧
    ∀ c : Causes, c.code = c.host.toNat + 2 * c.inhibit.toNat + 4 * c.trip.toNat + 8 * c.overflow.toNat) ∧
  (Reason.endCrowded.code = 1 ∧ Reason.endRange.code = 2 ∧ Reason.actRange.code = 3 ∧ Reason.actPassed.code = 4 ∧
    Reason.actCrowded.code = 5 ∧ Target.stopped.code = 1 ∧ Target.running.code = 2 ∧ AxisState.unconfigured.code = 0 ∧
    AxisState.stopped.code = 1 ∧ AxisState.running.code = 2 ∧ (∀ t, (AxisState.held t).code = 3) ∧ LineState.undriven.code = 0 ∧
    LineState.inactive.code = 1 ∧ LineState.active.code = 2 ∧ (∀ e, (LineState.pulsing e).code = 3) ∧ LineState.forced.code = 4 ∧
    ChanState.off.code = 0 ∧ ChanState.accepting.code = 1 ∧ (∀ e, (ChanState.lockout e).code = 2)) ∧
  (SlotState.off.code = 0 ∧ SlotState.clear.code = 1 ∧ SlotState.pending.code = 2 ∧ SlotState.tripped.code = 3 ∧
    (∀ a z, (SlotKind.overspeed a z).code = 0 ∧ (SlotKind.overspeed a z).subject = a.val) ∧
    (∀ a z, (SlotKind.quadError a z).code = 1 ∧ (SlotKind.quadError a z).subject = a.val) ∧
    (∀ a, (SlotKind.indexSpacing a).code = 2 ∧ (SlotKind.indexSpacing a).subject = a.val) ∧
    (∀ n, (SlotKind.lineFeedback n).code = 3 ∧ (SlotKind.lineFeedback n).subject = n.val) ∧ (∀ r, (Severity.warn r).code = 0) ∧
    Severity.hold.code = 1 ∧ Severity.latch.code = 2 ∧ PairState.absent.code = 0 ∧ PairState.active.code = 1 ∧
    PairState.draining.code = 2 ∧ PairState.error.code = 3 ∧ NqState.unset.code = 0 ∧ NqState.active.code = 1 ∧
    NqState.error.code = 3 ∧ ErrorCause.postRange.code = 1 ∧ ErrorCause.doneRange.code = 2 ∧ ErrorCause.fetchError.code = 3 ∧
    ErrorCause.postError.code = 4 ∧ ErrorCause.statusWrite.code = 5)

/-! ## Records -/

/-- BAD_KIND and NOP; and a record of any kind with a reserved field that is not 0, or a field out of its range, is refused
BAD_FIELD with the index of the first one, the reserved fields before the others and each in index order. Model's choices: log
3. -/
def Obligations.BadRecordsAreRefused : Prop :=
  (∀ (i : Instr) (k : Kind) (r : Record) (s : State) (p : PairId) (ix : Nat), i.record = some (k, r) →
    s.fetchedFor r k = some p → badField k r = some ix → exec i s = .next (s.recordAnswered p r .badField ix s.ts)) ∧
  (∀ (k : Kind) (r : Record),
    (badField k r = none ↔ ∀ x ∈ reservedChecks k r ++ fieldChecks k r, x.2 = true) ∧
    (∀ ix, badField k r = some ix ↔ ∃ before after, reservedChecks k r ++ fieldChecks k r = before ++ (ix, false) :: after ∧
      ∀ x ∈ before, x.2 = true) ∧
    ((reservedChecks k r).map (·.1)).Pairwise (· < ·) ∧ ((fieldChecks k r).map (·.1)).Pairwise (· < ·)) ∧
  (∀ (r : Record) (k : Kind) (s : State) (p : PairId), s.fetchedFor r k = some p ↔
    ∃ addr, s.engine = some ⟨p, addr⟩ ∧ s.stopped p = false ∧ r.byte 0 = k.code ∧
      k ∈ (if p = 0 then Kind.admin else Kind.work)) ∧
  (∀ (r : Record) (s : State) (p : PairId) (addr : W64), s.engine = some ⟨p, addr⟩ → s.stopped p = false →
    (∀ k ∈ (if p = 0 then Kind.admin else Kind.work), r.byte 0 ≠ k.code) →
    exec (.badKind r) s = .next (s.recordAnswered p r .badKind 0 s.ts)) ∧
  (∀ (r : Record) (s : State) (p : PairId), s.Takes r .nop p →
    exec (.nop r) s = .next (s.recordAnswered p r .ok 0 s.ts))

/-- ARM, ARM_DEFERRED, CANCEL, LINE_WRITE and BARRIER: the tests of the state, and the record that goes on at its processor.
Model's choices: logs 3, 5 and 17. -/
def Obligations.WorkRecordsGoOn : Prop :=
  ∀ (s : State) (r : Record) (p : PairId),
    let refused (st : Status) (detail : Nat) : Host.Outcome State Fault Refusal := .next (s.recordAnswered p r st detail s.ts)
    let lined (e : Entry) (ok : State) : Host.Outcome State Fault Refusal := match (s.line e.line).config with
      | .compare b _ => if b = e.axis then .next ok else refused .lineAxis 0
      | _ => refused .lineMode 0
    (s.Takes r .arm p →
      let e := r.entry p (r.axisAt 27)
      ((s.axis e.axis).config = none → exec (.arm r) s = refused .notConfigured 0) ∧
      (∀ g, (s.axis e.axis).config = some g → exec (.arm r) s =
        if posOutside g.kind (r.s32 12) = true then refused .badField 5
        else if pitchTooWide g.kind e = true then refused .badField 6
        else lined e (s.recordTaken p r (.allocateArm e (r.s32 12))))) ∧
    (s.Takes r .armDeferred p →
      ((s.chan (r.chanAt 27)).config = none → exec (.armDeferred r) s = refused .lineAxis 0) ∧
      (∀ c g, (s.chan (r.chanAt 27)).config = some c → (s.axis c.axis).config = some g →
        let e := r.entry p c.axis
        exec (.armDeferred r) s =
          if pitchTooWide g.kind e = true then refused .badField 6
          else lined e (s.recordTaken p r (.allocateDeferred ⟨e, r.s32 12⟩ (r.chanAt 27) (r.flag 1))))) ∧
    (s.Takes r .cancel p →
      let reached (a : AxisId) : Bool := decide (r.restriction = none ∨ r.restriction = some a)
      exec (.cancel r) s = .next (s.recordTaken p r (.cancelling r.cancelScope r.restriction
        ⟨((List.finRange 4).filter reached).map .list ++ (List.finRange 8).map .channel,
          ((List.finRange 4).filter fun a => !reached a).map fun _ => (0, 0), 0, 0⟩))) ∧
    (s.Takes r .lineWrite p → exec (.lineWrite r) s = .next
      (s.recordTaken p r (.writing (r.lineAt 8) (actionOf (r.u8 9) (r.u32 12) (r.u8 10))))) ∧
    (s.Takes r .barrier p → s.proc p = .idle →
      let n := s.liveEntries.countP fun e => e.owner == p && r.barrierScope.fits e.group
      exec (.barrier r) s = .next (if n = 0 then s.recordAnswered p r .ok 0 s.ts
        else s.recordTaken p r (.waiting ⟨r.barrierScope, n,
          if r.u32 8 = 0 then none else some (min (2 ^ 64 - 1) (s.ts + r.u32 8)), false, []⟩)))

/-- BARRIER_RELEASE_NOTICE, BARRIER_TIMEOUT, whose stamp is that of the expiry tick since no tick comes before it, and
REMOVAL_ANSWER. Model's choices: logs 1, 3, 5, 17 and 40. -/
def Obligations.ProcessorsTakeTheirAnswers : Prop :=
  ∀ (s : State) (p : PairId) (kd : Byte) (ck : W32),
    let goesOn (ph : Phase) : State := { s with procs := s.procs.set p (.busy kd ck ph) }
    (∀ b, s.proc p = .busy kd ck (.waiting b) →
      (∀ g stamp rest, b.notices = (g, stamp) :: rest → exec (.barrierReleaseNotice p) s = .next
        (if b.scope.fits g = false then goesOn (.waiting { b with notices := rest })
        else if b.remaining ≤ 1 then s.withAck p kd ck .ok 0 stamp
        else goesOn (.waiting { b with notices := rest, remaining := b.remaining - 1 }))) ∧
      (b.expired = true → exec (.barrierTimeout p) s = .next (s.withAck p kd ck .timedOut b.remaining s.ts)) ∧
      (b.expired = false → exec (.barrierTimeout p) s = .next s)) ∧
    (∀ (rm : Removing) (n stamp : Nat) (rest : List (Nat × Nat)), rm.answers = (n, stamp) :: rest →
      let sum := rm.sum + n
      let last := max rm.stamp stamp
      let rm' : Removing := { rm with answers := rest, sum := sum, stamp := last }
      let ends : Prop := rm.todo = [] ∧ rest = []
      (∀ scope restrict, s.proc p = .busy kd ck (.cancelling scope restrict rm) →
        (ends → exec (.removalAnswer p) s = .next
          (if sum = 0 then s.withAck p kd ck .notFound 0 last else s.withAck p kd ck .ok sum last)) ∧
        (¬ends → exec (.removalAnswer p) s = .next (goesOn (.cancelling scope restrict rm')))) ∧
      (∀ a, s.proc p = .busy kd ck (.cancellingAxis a rm) →
        (ends → exec (.removalAnswer p) s = .next (s.withAck p kd ck .ok sum last)) ∧
        (¬ends → exec (.removalAnswer p) s = .next (goesOn (.cancellingAxis a rm')))) ∧
      (∀ q z, s.proc p = .busy kd ck (.discarding q rm z) →
        exec (.removalAnswer p) s = .next (goesOn (.discarding q rm' z))))

/-- CREATE_PAIR, DELETE_PAIR and SET_NOTICE_RING: of the old notice ring, the records not yet issued are discarded, a tail write
is made but publishes nothing, and a write on the bus ends without moving an index; no other ring's write changes. Model's
choices: logs 3, 12 and 13. -/
def Obligations.PairRecordsMakeAndDrainPairs : Prop :=
  ∀ (s : State) (r : Record) (p : PairId),
    let q := r.pairAt 8
    (s.Takes r .createPair p →
      ((s.pair q).state ≠ .absent → exec (.createPair r) s = .next (s.recordAnswered p r .pairExists 0 s.ts)) ∧
      ((s.pair q).state = .absent →
        let t := s.recordAnswered p r .ok 0 s.ts
        exec (.createPair r) s = .next { t with
          pairs := t.pairs.set q ⟨.active, none, BitVec.ofNat 64 (r.u64 16), BitVec.ofNat 64 (r.u64 24), r.u16 32, r.u16 34,
            0, 0, 0, 0, 0, false, 0, 0⟩
          pool := ⟨s.pool.free, s.pool.quota.set q (r.u16 36), s.pool.live.set q 0⟩
          writeQ := t.writeQ ++ [.head q 0, .tail (.cq q) 0 false] })) ∧
    (s.Takes r .deletePair p →
      ((s.pair q).state = .absent → exec (.deletePair r) s = .next (s.recordAnswered p r .pairAbsent 0 s.ts)) ∧
      ((s.pair q).state ≠ .absent →
        let t := s.recordTaken p r (.draining q (r.flag 0))
        let drains : State := { t with pairs := t.pairs.set q { s.pair q with state := .draining } }
        (∀ kd ck b, s.proc q = .busy kd ck (.waiting b) →
          exec (.deletePair r) s = .next (drains.withAck q kd ck .aborted b.remaining s.ts)) ∧
        ((∀ kd ck b, s.proc q ≠ .busy kd ck (.waiting b)) → exec (.deletePair r) s = .next drains))) ∧
    (s.Takes r .setNoticeRing p →
      let answered := s.recordAnswered p r .ok 0 s.ts
      ∃ t, exec (.setNoticeRing r) s = .next t ∧
      t = { answered with
        nq := ⟨.active, BitVec.ofNat 64 (r.u64 8), r.u16 16, 0, 0, 0, 0, 0⟩
        writeQ := ((answered.writeQ.filter fun w => !w.recordOf .nq).map fun w => match w with
          | .tail .nq v _ => .tail .nq v false
          | _ => w) ++ [.tail .nq 0 false]
        onBus := s.onBus.map fun b => { b with stale := b.stale || b.write.ofNotices } } ∧
      t.onTheWay .nq = []) ∧
    (∀ w : QueuedWrite, (w.recordOf .nq = true ↔ ∃ slot next data, w = .record .nq slot next data) ∧
      (w.ofNotices = true ↔ (∃ slot next data, w = .record .nq slot next data) ∨ ∃ v publishes, w = .tail .nq v publishes))

/-- DRAIN_END and DISCARD_COMPLETE: a draining pair waits for its own record; then it is deleted, keeping its error cause alone,
refused with its live entries, or discarded, and once all twelve blocks have answered and no entry is left, deleted; a write of
the pair on the bus then moves no index, and no other ring's write changes. Model's choices: logs 1, 3, 14, 16 and 23. -/
def Obligations.DrainsEndInTheirWays : Prop :=
  ∀ (s : State) (q : PairId) (kd : Byte) (ck : W32), q ≠ 0 →
    let live := s.pool.live[q]
    let gone (t : State) (detail stamp : Nat) : Prop :=
      t = { s with
        pairs := s.pairs.set q { absentPair with cause := (s.pair q).cause }, pool := ⟨s.pool.free, s.pool.quota.set q 0, s.pool.live.set q 0⟩
        writeQ := (s.writeQ.filter fun w => !w.ofPair q) ++ [.head q 0, .tail (.cq q) 0 false]
        procs := s.procs.set 0 (.busy kd ck .acked), cqReq := t.cqReq
        onBus := s.onBus.map fun b => { b with stale := b.stale || b.write.ofPair q }
        lists := t.lists, channels := t.channels } ∧
      t.onTheWay (.cq q) = [] ∧
      (∀ p, t.requests p = if p = q then [] else if p = 0 then s.requests 0 ++ [.ack ⟨kd, ck, .ok, detail, stamp⟩]
        else s.requests p) ∧
      (∀ a, (t.clist a) = { s.clist a with discarding := (s.clist a).discarding.filter fun p => p != q }) ∧
      (∀ c, t.chan c = { s.chan c with openBatch := (s.chan c).openBatch.filter fun b => b.owner != q })
    (∀ discard, s.proc 0 = .busy kd ck (.draining q discard) →
      (s.granted q = true ∨ s.proc q ≠ .idle → exec .drainEnd s = .next s) ∧
      (s.granted q = false → s.proc q = .idle →
        (discard = false → live = 0 → ∃ t, exec .drainEnd s = .next t ∧ gone t 0 s.ts) ∧
        (discard = false → live ≠ 0 → exec .drainEnd s = .next { s.withAck 0 kd ck .pairHasEntries live s.ts with
          pairs := s.pairs.set q { s.pair q with state := if (s.pair q).cause = none then .active else .error } }) ∧
        (discard = true → exec .drainEnd s = .next { s with
          procs := s.procs.set 0 (.busy kd ck (.discarding q
            ⟨(List.finRange 4).map .list ++ (List.finRange 8).map .channel, [], 0, 0⟩
            (if live = 0 then some s.ts else none))) }))) ∧
    (∀ rm z, s.proc 0 = .busy kd ck (.discarding q rm z) →
      (∀ stamp, z = some stamp → rm.todo = [] → rm.answers = [] → live = 0 →
        ∃ t, exec .discardComplete s = .next t ∧ gone t rm.sum stamp) ∧
      (z = none ∨ rm.todo ≠ [] ∨ rm.answers ≠ [] ∨ live ≠ 0 → exec .discardComplete s = .next s)) ∧
    (∀ w : QueuedWrite, w.ofPair q = true ↔ (∃ slot next data, w = .record (.cq q) slot next data) ∨ (∃ v, w = .head q v) ∨
      ∃ v publishes, w = .tail (.cq q) v publishes)

/-- LINE_CONFIG and CAPTURE_CONFIG: their tests in order, and the line or the channel that starts afresh. Model's choices: logs
3, 8, 9, 18 and 44. -/
def Obligations.LineAndChannelConfiguration : Prop :=
  ∀ (s : State) (r : Record) (p : PairId),
    let refused (st : Status) (detail : Nat) : Host.Outcome State Fault Refusal := .next (s.recordAnswered p r st detail s.ts)
    (s.Takes r .lineConfig p →
      let n := r.lineAt 8
      let g := r.lineConfig
      let l : Line := { s.line n with
        config := g, suppressed := 0, axisHeld := false, tick := false, fromAxis := [] }
      let tested (ok : Line) : Host.Outcome State Fault Refusal :=
        if 0 < (s.line n).refCount then refused .lineInUse 0
        else if 0 < (s.line n).tripCount then refused .lineTripped 0
        else .next { s.recordAnswered p r .ok 0 s.ts with lines := s.lines.set n ok }
      (g = .disabled → exec (.lineConfig r) s = tested { l with state := .undriven }) ∧
      (∀ d, g = .host d → exec (.lineConfig r) s =
        tested { l with state := if (s.line n).holdIn = true then .forced else .inactive }) ∧
      (∀ a d, g = .compare a d → exec (.lineConfig r) s =
        if (s.axis a).config = none then refused .notConfigured 0
        else tested { l with
          axisHeld := (s.axis a).isHeld, state := if (s.axis a).isHeld = true then .forced else .inactive })) ∧
    (s.Takes r .captureConfig p →
      let c := r.chanAt 8
      let x := s.chan c
      let g := r.chanConfig
      (r.flag 0 = true →
        ((s.axis g.axis).config = none → exec (.captureConfig r) s = refused .notConfigured 0) ∧
        (∀ y lo hi, (s.axis g.axis).config = some y → g.window = some (lo, hi) →
          (y.kind = .linear → hi < lo → exec (.captureConfig r) s = refused .badField 9) ∧
          (∀ m, y.kind = .rotary m → lo < 0 ∨ (m : Int) ≤ lo → exec (.captureConfig r) s = refused .badField 8) ∧
          (∀ m, y.kind = .rotary m → 0 ≤ lo → lo < m → hi < 0 ∨ (m : Int) ≤ hi →
            exec (.captureConfig r) s = refused .badField 9)) ∧
        (∀ y, (s.axis g.axis).config = some y →
          (∀ lo hi, g.window = some (lo, hi) → match y.kind with
            | .linear => lo ≤ hi
            | .rotary m => 0 ≤ lo ∧ lo < m ∧ 0 ≤ hi ∧ hi < m) →
          exec (.captureConfig r) s = if x.waiting ≠ [] then refused .channelHasEntries 0
            else .next { s.recordAnswered p r .ok 0 s.ts with
              channels := s.channels.set c ⟨some g, .accepting, s.pins.cin[g.input], 0, 0, none, none, [], []⟩ })) ∧
      (r.flag 0 = false →
        (x.waiting ≠ [] → r.flag 1 = false → exec (.captureConfig r) s = refused .channelHasEntries 0) ∧
        (x.waiting = [] ∨ r.flag 1 = true → exec (.captureConfig r) s = .next
          { (s.recordAnswered p r .ok 0 s.ts).afterReleases x.waiting with
            channels := s.channels.set c ⟨none, .off, x.ref, 0, 0, none, none, [], []⟩ })))


/-- QUERY, QUERY_WRITE_DONE and CANCEL_AXIS: the snapshot of the object asked for is written to the buffer, and the ack, with
the snapshot's stamp, follows the answer of that write. A QUERY of a line finds the notices up to the last release sent to it
taken, and no other. Model's choices: logs 3, 7, 15, 17 and 28. -/
def Obligations.QueriesWriteTheirSnapshot : Prop :=
  ∀ (s : State) (r : Record) (p : PairId),
    (∀ fb, s.Takes r .query p →
      let o := queryOf (r.u8 8) (r.u8 9)
      let t := s.recordTaken p r (.querying s.ts)
      let seen : State := { t with pins := { s.pins with fb := fb } }
      exec (.query r fb) s = .next { seen.settle o with
        writeQ := t.writeQ ++ [.snapshot (BitVec.ofNat 64 (r.u64 16)) ((seen.settle o).snapshotOf o)] }) ∧
    (∀ o, (∀ n, o = .line n → .release ∉ (s.line n).fromMonitor) → s.settle o = s) ∧
    (∀ n before after, (s.line n).fromMonitor = before ++ .release :: after → .release ∉ after →
      .next (s.settle (.line n)) = (before ++ [.release]).foldl (fun u m => match u, m with
        | .next t, .trip => exec (.lineTripNotice n) t
        | .next t, .release => exec (.lineReleaseNotice n) t
        | u, _ => u) (.next s : Host.Outcome State Fault Refusal)) ∧
    (∀ kd ck stamp addr data a b, s.proc 0 = .busy kd ck (.querying stamp) → s.onBus = some ⟨.snapshot addr data, a, b⟩ →
      exec (.queryWriteDone true) s = .next { s.withAck 0 kd ck .ok 0 stamp with onBus := none } ∧
      exec (.queryWriteDone false) s = .next { s.withAck 0 kd ck .busError 0 stamp with onBus := none }) ∧
    (∀ g, s.Takes r .cancelAxis p → (s.axis (r.axisAt 8)).config = some g → exec (.cancelAxis r) s = .next
      (s.recordTaken p r (.cancellingAxis (r.axisAt 8)
        ⟨.list (r.axisAt 8) :: (List.finRange 8).map .channel, [], 0, 0⟩)))
end

