-- ==== Sys2Proof/Laws/State.lean ====
section
/-! SUPPORT. What each operation leaves alone: one lemma for each field and each operation, so that no proof unfolds an
update. -/

namespace Sys2Proof.Machine

variable (s : State)

/-! `updAxis` -/

@[simp] theorem State.updAxis_ts (a : AxisId) (f : Axis → Axis) : (s.updAxis a f).ts = s.ts := rfl
@[simp] theorem State.updAxis_resetting (a : AxisId) (f : Axis → Axis) : (s.updAxis a f).resetting = s.resetting := rfl
@[simp] theorem State.updAxis_resetCause (a : AxisId) (f : Axis → Axis) : (s.updAxis a f).resetCause = s.resetCause := rfl
@[simp] theorem State.updAxis_resetTick (a : AxisId) (f : Axis → Axis) : (s.updAxis a f).resetTick = s.resetTick := rfl
@[simp] theorem State.updAxis_enable (a : AxisId) (f : Axis → Axis) : (s.updAxis a f).enable = s.enable := rfl
@[simp] theorem State.updAxis_fault (a : AxisId) (f : Axis → Axis) : (s.updAxis a f).fault = s.fault := rfl
@[simp] theorem State.updAxis_sbBase (a : AxisId) (f : Axis → Axis) : (s.updAxis a f).sbBase = s.sbBase := rfl
@[simp] theorem State.updAxis_irqMask (a : AxisId) (f : Axis → Axis) : (s.updAxis a f).irqMask = s.irqMask := rfl
@[simp] theorem State.updAxis_pins (a : AxisId) (f : Axis → Axis) : (s.updAxis a f).pins = s.pins := rfl
@[simp] theorem State.updAxis_lists (a : AxisId) (f : Axis → Axis) : (s.updAxis a f).lists = s.lists := rfl
@[simp] theorem State.updAxis_pool (a : AxisId) (f : Axis → Axis) : (s.updAxis a f).pool = s.pool := rfl
@[simp] theorem State.updAxis_channels (a : AxisId) (f : Axis → Axis) : (s.updAxis a f).channels = s.channels := rfl
@[simp] theorem State.updAxis_lines (a : AxisId) (f : Axis → Axis) : (s.updAxis a f).lines = s.lines := rfl
@[simp] theorem State.updAxis_monitor (a : AxisId) (f : Axis → Axis) : (s.updAxis a f).monitor = s.monitor := rfl
@[simp] theorem State.updAxis_slots (a : AxisId) (f : Axis → Axis) : (s.updAxis a f).slots = s.slots := rfl
@[simp] theorem State.updAxis_pairs (a : AxisId) (f : Axis → Axis) : (s.updAxis a f).pairs = s.pairs := rfl
@[simp] theorem State.updAxis_procs (a : AxisId) (f : Axis → Axis) : (s.updAxis a f).procs = s.procs := rfl
@[simp] theorem State.updAxis_nq (a : AxisId) (f : Axis → Axis) : (s.updAxis a f).nq = s.nq := rfl
@[simp] theorem State.updAxis_engine (a : AxisId) (f : Axis → Axis) : (s.updAxis a f).engine = s.engine := rfl
@[simp] theorem State.updAxis_lastServed (a : AxisId) (f : Axis → Axis) : (s.updAxis a f).lastServed = s.lastServed := rfl
@[simp] theorem State.updAxis_cqReq (a : AxisId) (f : Axis → Axis) : (s.updAxis a f).cqReq = s.cqReq := rfl
@[simp] theorem State.updAxis_nqReq (a : AxisId) (f : Axis → Axis) : (s.updAxis a f).nqReq = s.nqReq := rfl
@[simp] theorem State.updAxis_writeQ (a : AxisId) (f : Axis → Axis) : (s.updAxis a f).writeQ = s.writeQ := rfl
@[simp] theorem State.updAxis_onBus (a : AxisId) (f : Axis → Axis) : (s.updAxis a f).onBus = s.onBus := rfl
@[simp] theorem State.updAxis_pending (a : AxisId) (f : Axis → Axis) : (s.updAxis a f).pending = s.pending := rfl

/-! `updList` -/

@[simp] theorem State.updList_ts (a : AxisId) (f : CList → CList) : (s.updList a f).ts = s.ts := rfl
@[simp] theorem State.updList_resetting (a : AxisId) (f : CList → CList) : (s.updList a f).resetting = s.resetting := rfl
@[simp] theorem State.updList_resetCause (a : AxisId) (f : CList → CList) : (s.updList a f).resetCause = s.resetCause := rfl
@[simp] theorem State.updList_resetTick (a : AxisId) (f : CList → CList) : (s.updList a f).resetTick = s.resetTick := rfl
@[simp] theorem State.updList_enable (a : AxisId) (f : CList → CList) : (s.updList a f).enable = s.enable := rfl
@[simp] theorem State.updList_fault (a : AxisId) (f : CList → CList) : (s.updList a f).fault = s.fault := rfl
@[simp] theorem State.updList_sbBase (a : AxisId) (f : CList → CList) : (s.updList a f).sbBase = s.sbBase := rfl
@[simp] theorem State.updList_irqMask (a : AxisId) (f : CList → CList) : (s.updList a f).irqMask = s.irqMask := rfl
@[simp] theorem State.updList_pins (a : AxisId) (f : CList → CList) : (s.updList a f).pins = s.pins := rfl
@[simp] theorem State.updList_axes (a : AxisId) (f : CList → CList) : (s.updList a f).axes = s.axes := rfl
@[simp] theorem State.updList_pool (a : AxisId) (f : CList → CList) : (s.updList a f).pool = s.pool := rfl
@[simp] theorem State.updList_channels (a : AxisId) (f : CList → CList) : (s.updList a f).channels = s.channels := rfl
@[simp] theorem State.updList_lines (a : AxisId) (f : CList → CList) : (s.updList a f).lines = s.lines := rfl
@[simp] theorem State.updList_monitor (a : AxisId) (f : CList → CList) : (s.updList a f).monitor = s.monitor := rfl
@[simp] theorem State.updList_slots (a : AxisId) (f : CList → CList) : (s.updList a f).slots = s.slots := rfl
@[simp] theorem State.updList_pairs (a : AxisId) (f : CList → CList) : (s.updList a f).pairs = s.pairs := rfl
@[simp] theorem State.updList_procs (a : AxisId) (f : CList → CList) : (s.updList a f).procs = s.procs := rfl
@[simp] theorem State.updList_nq (a : AxisId) (f : CList → CList) : (s.updList a f).nq = s.nq := rfl
@[simp] theorem State.updList_engine (a : AxisId) (f : CList → CList) : (s.updList a f).engine = s.engine := rfl
@[simp] theorem State.updList_lastServed (a : AxisId) (f : CList → CList) : (s.updList a f).lastServed = s.lastServed := rfl
@[simp] theorem State.updList_cqReq (a : AxisId) (f : CList → CList) : (s.updList a f).cqReq = s.cqReq := rfl
@[simp] theorem State.updList_nqReq (a : AxisId) (f : CList → CList) : (s.updList a f).nqReq = s.nqReq := rfl
@[simp] theorem State.updList_writeQ (a : AxisId) (f : CList → CList) : (s.updList a f).writeQ = s.writeQ := rfl
@[simp] theorem State.updList_onBus (a : AxisId) (f : CList → CList) : (s.updList a f).onBus = s.onBus := rfl
@[simp] theorem State.updList_pending (a : AxisId) (f : CList → CList) : (s.updList a f).pending = s.pending := rfl

/-! `updChan` -/

@[simp] theorem State.updChan_ts (c : ChanId) (f : Channel → Channel) : (s.updChan c f).ts = s.ts := rfl
@[simp] theorem State.updChan_resetting (c : ChanId) (f : Channel → Channel) : (s.updChan c f).resetting = s.resetting := rfl
@[simp] theorem State.updChan_resetCause (c : ChanId) (f : Channel → Channel) : (s.updChan c f).resetCause = s.resetCause := rfl
@[simp] theorem State.updChan_resetTick (c : ChanId) (f : Channel → Channel) : (s.updChan c f).resetTick = s.resetTick := rfl
@[simp] theorem State.updChan_enable (c : ChanId) (f : Channel → Channel) : (s.updChan c f).enable = s.enable := rfl
@[simp] theorem State.updChan_fault (c : ChanId) (f : Channel → Channel) : (s.updChan c f).fault = s.fault := rfl
@[simp] theorem State.updChan_sbBase (c : ChanId) (f : Channel → Channel) : (s.updChan c f).sbBase = s.sbBase := rfl
@[simp] theorem State.updChan_irqMask (c : ChanId) (f : Channel → Channel) : (s.updChan c f).irqMask = s.irqMask := rfl
@[simp] theorem State.updChan_pins (c : ChanId) (f : Channel → Channel) : (s.updChan c f).pins = s.pins := rfl
@[simp] theorem State.updChan_axes (c : ChanId) (f : Channel → Channel) : (s.updChan c f).axes = s.axes := rfl
@[simp] theorem State.updChan_lists (c : ChanId) (f : Channel → Channel) : (s.updChan c f).lists = s.lists := rfl
@[simp] theorem State.updChan_pool (c : ChanId) (f : Channel → Channel) : (s.updChan c f).pool = s.pool := rfl
@[simp] theorem State.updChan_lines (c : ChanId) (f : Channel → Channel) : (s.updChan c f).lines = s.lines := rfl
@[simp] theorem State.updChan_monitor (c : ChanId) (f : Channel → Channel) : (s.updChan c f).monitor = s.monitor := rfl
@[simp] theorem State.updChan_slots (c : ChanId) (f : Channel → Channel) : (s.updChan c f).slots = s.slots := rfl
@[simp] theorem State.updChan_pairs (c : ChanId) (f : Channel → Channel) : (s.updChan c f).pairs = s.pairs := rfl
@[simp] theorem State.updChan_procs (c : ChanId) (f : Channel → Channel) : (s.updChan c f).procs = s.procs := rfl
@[simp] theorem State.updChan_nq (c : ChanId) (f : Channel → Channel) : (s.updChan c f).nq = s.nq := rfl
@[simp] theorem State.updChan_engine (c : ChanId) (f : Channel → Channel) : (s.updChan c f).engine = s.engine := rfl
@[simp] theorem State.updChan_lastServed (c : ChanId) (f : Channel → Channel) : (s.updChan c f).lastServed = s.lastServed := rfl
@[simp] theorem State.updChan_cqReq (c : ChanId) (f : Channel → Channel) : (s.updChan c f).cqReq = s.cqReq := rfl
@[simp] theorem State.updChan_nqReq (c : ChanId) (f : Channel → Channel) : (s.updChan c f).nqReq = s.nqReq := rfl
@[simp] theorem State.updChan_writeQ (c : ChanId) (f : Channel → Channel) : (s.updChan c f).writeQ = s.writeQ := rfl
@[simp] theorem State.updChan_onBus (c : ChanId) (f : Channel → Channel) : (s.updChan c f).onBus = s.onBus := rfl
@[simp] theorem State.updChan_pending (c : ChanId) (f : Channel → Channel) : (s.updChan c f).pending = s.pending := rfl

/-! `updLine` -/

@[simp] theorem State.updLine_ts (n : LineId) (f : Line → Line) : (s.updLine n f).ts = s.ts := rfl
@[simp] theorem State.updLine_resetting (n : LineId) (f : Line → Line) : (s.updLine n f).resetting = s.resetting := rfl
@[simp] theorem State.updLine_resetCause (n : LineId) (f : Line → Line) : (s.updLine n f).resetCause = s.resetCause := rfl
@[simp] theorem State.updLine_resetTick (n : LineId) (f : Line → Line) : (s.updLine n f).resetTick = s.resetTick := rfl
@[simp] theorem State.updLine_enable (n : LineId) (f : Line → Line) : (s.updLine n f).enable = s.enable := rfl
@[simp] theorem State.updLine_fault (n : LineId) (f : Line → Line) : (s.updLine n f).fault = s.fault := rfl
@[simp] theorem State.updLine_sbBase (n : LineId) (f : Line → Line) : (s.updLine n f).sbBase = s.sbBase := rfl
@[simp] theorem State.updLine_irqMask (n : LineId) (f : Line → Line) : (s.updLine n f).irqMask = s.irqMask := rfl
@[simp] theorem State.updLine_pins (n : LineId) (f : Line → Line) : (s.updLine n f).pins = s.pins := rfl
@[simp] theorem State.updLine_axes (n : LineId) (f : Line → Line) : (s.updLine n f).axes = s.axes := rfl
@[simp] theorem State.updLine_lists (n : LineId) (f : Line → Line) : (s.updLine n f).lists = s.lists := rfl
@[simp] theorem State.updLine_pool (n : LineId) (f : Line → Line) : (s.updLine n f).pool = s.pool := rfl
@[simp] theorem State.updLine_channels (n : LineId) (f : Line → Line) : (s.updLine n f).channels = s.channels := rfl
@[simp] theorem State.updLine_monitor (n : LineId) (f : Line → Line) : (s.updLine n f).monitor = s.monitor := rfl
@[simp] theorem State.updLine_slots (n : LineId) (f : Line → Line) : (s.updLine n f).slots = s.slots := rfl
@[simp] theorem State.updLine_pairs (n : LineId) (f : Line → Line) : (s.updLine n f).pairs = s.pairs := rfl
@[simp] theorem State.updLine_procs (n : LineId) (f : Line → Line) : (s.updLine n f).procs = s.procs := rfl
@[simp] theorem State.updLine_nq (n : LineId) (f : Line → Line) : (s.updLine n f).nq = s.nq := rfl
@[simp] theorem State.updLine_engine (n : LineId) (f : Line → Line) : (s.updLine n f).engine = s.engine := rfl
@[simp] theorem State.updLine_lastServed (n : LineId) (f : Line → Line) : (s.updLine n f).lastServed = s.lastServed := rfl
@[simp] theorem State.updLine_cqReq (n : LineId) (f : Line → Line) : (s.updLine n f).cqReq = s.cqReq := rfl
@[simp] theorem State.updLine_nqReq (n : LineId) (f : Line → Line) : (s.updLine n f).nqReq = s.nqReq := rfl
@[simp] theorem State.updLine_writeQ (n : LineId) (f : Line → Line) : (s.updLine n f).writeQ = s.writeQ := rfl
@[simp] theorem State.updLine_onBus (n : LineId) (f : Line → Line) : (s.updLine n f).onBus = s.onBus := rfl
@[simp] theorem State.updLine_pending (n : LineId) (f : Line → Line) : (s.updLine n f).pending = s.pending := rfl

/-! `updSlot` -/

@[simp] theorem State.updSlot_ts (m : SlotId) (f : Slot → Slot) : (s.updSlot m f).ts = s.ts := rfl
@[simp] theorem State.updSlot_resetting (m : SlotId) (f : Slot → Slot) : (s.updSlot m f).resetting = s.resetting := rfl
@[simp] theorem State.updSlot_resetCause (m : SlotId) (f : Slot → Slot) : (s.updSlot m f).resetCause = s.resetCause := rfl
@[simp] theorem State.updSlot_resetTick (m : SlotId) (f : Slot → Slot) : (s.updSlot m f).resetTick = s.resetTick := rfl
@[simp] theorem State.updSlot_enable (m : SlotId) (f : Slot → Slot) : (s.updSlot m f).enable = s.enable := rfl
@[simp] theorem State.updSlot_fault (m : SlotId) (f : Slot → Slot) : (s.updSlot m f).fault = s.fault := rfl
@[simp] theorem State.updSlot_sbBase (m : SlotId) (f : Slot → Slot) : (s.updSlot m f).sbBase = s.sbBase := rfl
@[simp] theorem State.updSlot_irqMask (m : SlotId) (f : Slot → Slot) : (s.updSlot m f).irqMask = s.irqMask := rfl
@[simp] theorem State.updSlot_pins (m : SlotId) (f : Slot → Slot) : (s.updSlot m f).pins = s.pins := rfl
@[simp] theorem State.updSlot_axes (m : SlotId) (f : Slot → Slot) : (s.updSlot m f).axes = s.axes := rfl
@[simp] theorem State.updSlot_lists (m : SlotId) (f : Slot → Slot) : (s.updSlot m f).lists = s.lists := rfl
@[simp] theorem State.updSlot_pool (m : SlotId) (f : Slot → Slot) : (s.updSlot m f).pool = s.pool := rfl
@[simp] theorem State.updSlot_channels (m : SlotId) (f : Slot → Slot) : (s.updSlot m f).channels = s.channels := rfl
@[simp] theorem State.updSlot_lines (m : SlotId) (f : Slot → Slot) : (s.updSlot m f).lines = s.lines := rfl
@[simp] theorem State.updSlot_monitor (m : SlotId) (f : Slot → Slot) : (s.updSlot m f).monitor = s.monitor := rfl
@[simp] theorem State.updSlot_pairs (m : SlotId) (f : Slot → Slot) : (s.updSlot m f).pairs = s.pairs := rfl
@[simp] theorem State.updSlot_procs (m : SlotId) (f : Slot → Slot) : (s.updSlot m f).procs = s.procs := rfl
@[simp] theorem State.updSlot_nq (m : SlotId) (f : Slot → Slot) : (s.updSlot m f).nq = s.nq := rfl
@[simp] theorem State.updSlot_engine (m : SlotId) (f : Slot → Slot) : (s.updSlot m f).engine = s.engine := rfl
@[simp] theorem State.updSlot_lastServed (m : SlotId) (f : Slot → Slot) : (s.updSlot m f).lastServed = s.lastServed := rfl
@[simp] theorem State.updSlot_cqReq (m : SlotId) (f : Slot → Slot) : (s.updSlot m f).cqReq = s.cqReq := rfl
@[simp] theorem State.updSlot_nqReq (m : SlotId) (f : Slot → Slot) : (s.updSlot m f).nqReq = s.nqReq := rfl
@[simp] theorem State.updSlot_writeQ (m : SlotId) (f : Slot → Slot) : (s.updSlot m f).writeQ = s.writeQ := rfl
@[simp] theorem State.updSlot_onBus (m : SlotId) (f : Slot → Slot) : (s.updSlot m f).onBus = s.onBus := rfl
@[simp] theorem State.updSlot_pending (m : SlotId) (f : Slot → Slot) : (s.updSlot m f).pending = s.pending := rfl

/-! `updPair` -/

@[simp] theorem State.updPair_ts (p : PairId) (f : Pair → Pair) : (s.updPair p f).ts = s.ts := rfl
@[simp] theorem State.updPair_resetting (p : PairId) (f : Pair → Pair) : (s.updPair p f).resetting = s.resetting := rfl
@[simp] theorem State.updPair_resetCause (p : PairId) (f : Pair → Pair) : (s.updPair p f).resetCause = s.resetCause := rfl
@[simp] theorem State.updPair_resetTick (p : PairId) (f : Pair → Pair) : (s.updPair p f).resetTick = s.resetTick := rfl
@[simp] theorem State.updPair_enable (p : PairId) (f : Pair → Pair) : (s.updPair p f).enable = s.enable := rfl
@[simp] theorem State.updPair_fault (p : PairId) (f : Pair → Pair) : (s.updPair p f).fault = s.fault := rfl
@[simp] theorem State.updPair_sbBase (p : PairId) (f : Pair → Pair) : (s.updPair p f).sbBase = s.sbBase := rfl
@[simp] theorem State.updPair_irqMask (p : PairId) (f : Pair → Pair) : (s.updPair p f).irqMask = s.irqMask := rfl
@[simp] theorem State.updPair_pins (p : PairId) (f : Pair → Pair) : (s.updPair p f).pins = s.pins := rfl
@[simp] theorem State.updPair_axes (p : PairId) (f : Pair → Pair) : (s.updPair p f).axes = s.axes := rfl
@[simp] theorem State.updPair_lists (p : PairId) (f : Pair → Pair) : (s.updPair p f).lists = s.lists := rfl
@[simp] theorem State.updPair_pool (p : PairId) (f : Pair → Pair) : (s.updPair p f).pool = s.pool := rfl
@[simp] theorem State.updPair_channels (p : PairId) (f : Pair → Pair) : (s.updPair p f).channels = s.channels := rfl
@[simp] theorem State.updPair_lines (p : PairId) (f : Pair → Pair) : (s.updPair p f).lines = s.lines := rfl
@[simp] theorem State.updPair_monitor (p : PairId) (f : Pair → Pair) : (s.updPair p f).monitor = s.monitor := rfl
@[simp] theorem State.updPair_slots (p : PairId) (f : Pair → Pair) : (s.updPair p f).slots = s.slots := rfl
@[simp] theorem State.updPair_procs (p : PairId) (f : Pair → Pair) : (s.updPair p f).procs = s.procs := rfl
@[simp] theorem State.updPair_nq (p : PairId) (f : Pair → Pair) : (s.updPair p f).nq = s.nq := rfl
@[simp] theorem State.updPair_engine (p : PairId) (f : Pair → Pair) : (s.updPair p f).engine = s.engine := rfl
@[simp] theorem State.updPair_lastServed (p : PairId) (f : Pair → Pair) : (s.updPair p f).lastServed = s.lastServed := rfl
@[simp] theorem State.updPair_cqReq (p : PairId) (f : Pair → Pair) : (s.updPair p f).cqReq = s.cqReq := rfl
@[simp] theorem State.updPair_nqReq (p : PairId) (f : Pair → Pair) : (s.updPair p f).nqReq = s.nqReq := rfl
@[simp] theorem State.updPair_writeQ (p : PairId) (f : Pair → Pair) : (s.updPair p f).writeQ = s.writeQ := rfl
@[simp] theorem State.updPair_onBus (p : PairId) (f : Pair → Pair) : (s.updPair p f).onBus = s.onBus := rfl
@[simp] theorem State.updPair_pending (p : PairId) (f : Pair → Pair) : (s.updPair p f).pending = s.pending := rfl

/-! `setProc` -/

@[simp] theorem State.setProc_ts (p : PairId) (x : Proc) : (s.setProc p x).ts = s.ts := rfl
@[simp] theorem State.setProc_resetting (p : PairId) (x : Proc) : (s.setProc p x).resetting = s.resetting := rfl
@[simp] theorem State.setProc_resetCause (p : PairId) (x : Proc) : (s.setProc p x).resetCause = s.resetCause := rfl
@[simp] theorem State.setProc_resetTick (p : PairId) (x : Proc) : (s.setProc p x).resetTick = s.resetTick := rfl
@[simp] theorem State.setProc_enable (p : PairId) (x : Proc) : (s.setProc p x).enable = s.enable := rfl
@[simp] theorem State.setProc_fault (p : PairId) (x : Proc) : (s.setProc p x).fault = s.fault := rfl
@[simp] theorem State.setProc_sbBase (p : PairId) (x : Proc) : (s.setProc p x).sbBase = s.sbBase := rfl
@[simp] theorem State.setProc_irqMask (p : PairId) (x : Proc) : (s.setProc p x).irqMask = s.irqMask := rfl
@[simp] theorem State.setProc_pins (p : PairId) (x : Proc) : (s.setProc p x).pins = s.pins := rfl
@[simp] theorem State.setProc_axes (p : PairId) (x : Proc) : (s.setProc p x).axes = s.axes := rfl
@[simp] theorem State.setProc_lists (p : PairId) (x : Proc) : (s.setProc p x).lists = s.lists := rfl
@[simp] theorem State.setProc_pool (p : PairId) (x : Proc) : (s.setProc p x).pool = s.pool := rfl
@[simp] theorem State.setProc_channels (p : PairId) (x : Proc) : (s.setProc p x).channels = s.channels := rfl
@[simp] theorem State.setProc_lines (p : PairId) (x : Proc) : (s.setProc p x).lines = s.lines := rfl
@[simp] theorem State.setProc_monitor (p : PairId) (x : Proc) : (s.setProc p x).monitor = s.monitor := rfl
@[simp] theorem State.setProc_slots (p : PairId) (x : Proc) : (s.setProc p x).slots = s.slots := rfl
@[simp] theorem State.setProc_pairs (p : PairId) (x : Proc) : (s.setProc p x).pairs = s.pairs := rfl
@[simp] theorem State.setProc_nq (p : PairId) (x : Proc) : (s.setProc p x).nq = s.nq := rfl
@[simp] theorem State.setProc_engine (p : PairId) (x : Proc) : (s.setProc p x).engine = s.engine := rfl
@[simp] theorem State.setProc_lastServed (p : PairId) (x : Proc) : (s.setProc p x).lastServed = s.lastServed := rfl
@[simp] theorem State.setProc_cqReq (p : PairId) (x : Proc) : (s.setProc p x).cqReq = s.cqReq := rfl
@[simp] theorem State.setProc_nqReq (p : PairId) (x : Proc) : (s.setProc p x).nqReq = s.nqReq := rfl
@[simp] theorem State.setProc_writeQ (p : PairId) (x : Proc) : (s.setProc p x).writeQ = s.writeQ := rfl
@[simp] theorem State.setProc_onBus (p : PairId) (x : Proc) : (s.setProc p x).onBus = s.onBus := rfl
@[simp] theorem State.setProc_pending (p : PairId) (x : Proc) : (s.setProc p x).pending = s.pending := rfl

/-! `setRequests` -/

@[simp] theorem State.setRequests_ts (p : PairId) (l : List CqRequest) : (s.setRequests p l).ts = s.ts := rfl
@[simp] theorem State.setRequests_resetting (p : PairId) (l : List CqRequest) : (s.setRequests p l).resetting = s.resetting := rfl
@[simp] theorem State.setRequests_resetCause (p : PairId) (l : List CqRequest) : (s.setRequests p l).resetCause = s.resetCause := rfl
@[simp] theorem State.setRequests_resetTick (p : PairId) (l : List CqRequest) : (s.setRequests p l).resetTick = s.resetTick := rfl
@[simp] theorem State.setRequests_enable (p : PairId) (l : List CqRequest) : (s.setRequests p l).enable = s.enable := rfl
@[simp] theorem State.setRequests_fault (p : PairId) (l : List CqRequest) : (s.setRequests p l).fault = s.fault := rfl
@[simp] theorem State.setRequests_sbBase (p : PairId) (l : List CqRequest) : (s.setRequests p l).sbBase = s.sbBase := rfl
@[simp] theorem State.setRequests_irqMask (p : PairId) (l : List CqRequest) : (s.setRequests p l).irqMask = s.irqMask := rfl
@[simp] theorem State.setRequests_pins (p : PairId) (l : List CqRequest) : (s.setRequests p l).pins = s.pins := rfl
@[simp] theorem State.setRequests_axes (p : PairId) (l : List CqRequest) : (s.setRequests p l).axes = s.axes := rfl
@[simp] theorem State.setRequests_lists (p : PairId) (l : List CqRequest) : (s.setRequests p l).lists = s.lists := rfl
@[simp] theorem State.setRequests_pool (p : PairId) (l : List CqRequest) : (s.setRequests p l).pool = s.pool := rfl
@[simp] theorem State.setRequests_channels (p : PairId) (l : List CqRequest) : (s.setRequests p l).channels = s.channels := rfl
@[simp] theorem State.setRequests_lines (p : PairId) (l : List CqRequest) : (s.setRequests p l).lines = s.lines := rfl
@[simp] theorem State.setRequests_monitor (p : PairId) (l : List CqRequest) : (s.setRequests p l).monitor = s.monitor := rfl
@[simp] theorem State.setRequests_slots (p : PairId) (l : List CqRequest) : (s.setRequests p l).slots = s.slots := rfl
@[simp] theorem State.setRequests_pairs (p : PairId) (l : List CqRequest) : (s.setRequests p l).pairs = s.pairs := rfl
@[simp] theorem State.setRequests_procs (p : PairId) (l : List CqRequest) : (s.setRequests p l).procs = s.procs := rfl
@[simp] theorem State.setRequests_nq (p : PairId) (l : List CqRequest) : (s.setRequests p l).nq = s.nq := rfl
@[simp] theorem State.setRequests_engine (p : PairId) (l : List CqRequest) : (s.setRequests p l).engine = s.engine := rfl
@[simp] theorem State.setRequests_lastServed (p : PairId) (l : List CqRequest) : (s.setRequests p l).lastServed = s.lastServed := rfl
@[simp] theorem State.setRequests_nqReq (p : PairId) (l : List CqRequest) : (s.setRequests p l).nqReq = s.nqReq := rfl
@[simp] theorem State.setRequests_writeQ (p : PairId) (l : List CqRequest) : (s.setRequests p l).writeQ = s.writeQ := rfl
@[simp] theorem State.setRequests_onBus (p : PairId) (l : List CqRequest) : (s.setRequests p l).onBus = s.onBus := rfl
@[simp] theorem State.setRequests_pending (p : PairId) (l : List CqRequest) : (s.setRequests p l).pending = s.pending := rfl

/-! `updAxes` -/

@[simp] theorem State.updAxes_ts (f : AxisId → Axis → Axis) : (s.updAxes f).ts = s.ts := by rw [State.updAxes]
@[simp] theorem State.updAxes_resetting (f : AxisId → Axis → Axis) : (s.updAxes f).resetting = s.resetting := by rw [State.updAxes]
@[simp] theorem State.updAxes_resetCause (f : AxisId → Axis → Axis) : (s.updAxes f).resetCause = s.resetCause := by rw [State.updAxes]
@[simp] theorem State.updAxes_resetTick (f : AxisId → Axis → Axis) : (s.updAxes f).resetTick = s.resetTick := by rw [State.updAxes]
@[simp] theorem State.updAxes_enable (f : AxisId → Axis → Axis) : (s.updAxes f).enable = s.enable := by rw [State.updAxes]
@[simp] theorem State.updAxes_fault (f : AxisId → Axis → Axis) : (s.updAxes f).fault = s.fault := by rw [State.updAxes]
@[simp] theorem State.updAxes_sbBase (f : AxisId → Axis → Axis) : (s.updAxes f).sbBase = s.sbBase := by rw [State.updAxes]
@[simp] theorem State.updAxes_irqMask (f : AxisId → Axis → Axis) : (s.updAxes f).irqMask = s.irqMask := by rw [State.updAxes]
@[simp] theorem State.updAxes_pins (f : AxisId → Axis → Axis) : (s.updAxes f).pins = s.pins := by rw [State.updAxes]
@[simp] theorem State.updAxes_lists (f : AxisId → Axis → Axis) : (s.updAxes f).lists = s.lists := by rw [State.updAxes]
@[simp] theorem State.updAxes_pool (f : AxisId → Axis → Axis) : (s.updAxes f).pool = s.pool := by rw [State.updAxes]
@[simp] theorem State.updAxes_channels (f : AxisId → Axis → Axis) : (s.updAxes f).channels = s.channels := by rw [State.updAxes]
@[simp] theorem State.updAxes_lines (f : AxisId → Axis → Axis) : (s.updAxes f).lines = s.lines := by rw [State.updAxes]
@[simp] theorem State.updAxes_monitor (f : AxisId → Axis → Axis) : (s.updAxes f).monitor = s.monitor := by rw [State.updAxes]
@[simp] theorem State.updAxes_slots (f : AxisId → Axis → Axis) : (s.updAxes f).slots = s.slots := by rw [State.updAxes]
@[simp] theorem State.updAxes_pairs (f : AxisId → Axis → Axis) : (s.updAxes f).pairs = s.pairs := by rw [State.updAxes]
@[simp] theorem State.updAxes_procs (f : AxisId → Axis → Axis) : (s.updAxes f).procs = s.procs := by rw [State.updAxes]
@[simp] theorem State.updAxes_nq (f : AxisId → Axis → Axis) : (s.updAxes f).nq = s.nq := by rw [State.updAxes]
@[simp] theorem State.updAxes_engine (f : AxisId → Axis → Axis) : (s.updAxes f).engine = s.engine := by rw [State.updAxes]
@[simp] theorem State.updAxes_lastServed (f : AxisId → Axis → Axis) : (s.updAxes f).lastServed = s.lastServed := by rw [State.updAxes]
@[simp] theorem State.updAxes_cqReq (f : AxisId → Axis → Axis) : (s.updAxes f).cqReq = s.cqReq := by rw [State.updAxes]
@[simp] theorem State.updAxes_nqReq (f : AxisId → Axis → Axis) : (s.updAxes f).nqReq = s.nqReq := by rw [State.updAxes]
@[simp] theorem State.updAxes_writeQ (f : AxisId → Axis → Axis) : (s.updAxes f).writeQ = s.writeQ := by rw [State.updAxes]
@[simp] theorem State.updAxes_onBus (f : AxisId → Axis → Axis) : (s.updAxes f).onBus = s.onBus := by rw [State.updAxes]
@[simp] theorem State.updAxes_pending (f : AxisId → Axis → Axis) : (s.updAxes f).pending = s.pending := by rw [State.updAxes]

/-! `updLists` -/

@[simp] theorem State.updLists_ts (f : AxisId → CList → CList) : (s.updLists f).ts = s.ts := by rw [State.updLists]
@[simp] theorem State.updLists_resetting (f : AxisId → CList → CList) : (s.updLists f).resetting = s.resetting := by rw [State.updLists]
@[simp] theorem State.updLists_resetCause (f : AxisId → CList → CList) : (s.updLists f).resetCause = s.resetCause := by rw [State.updLists]
@[simp] theorem State.updLists_resetTick (f : AxisId → CList → CList) : (s.updLists f).resetTick = s.resetTick := by rw [State.updLists]
@[simp] theorem State.updLists_enable (f : AxisId → CList → CList) : (s.updLists f).enable = s.enable := by rw [State.updLists]
@[simp] theorem State.updLists_fault (f : AxisId → CList → CList) : (s.updLists f).fault = s.fault := by rw [State.updLists]
@[simp] theorem State.updLists_sbBase (f : AxisId → CList → CList) : (s.updLists f).sbBase = s.sbBase := by rw [State.updLists]
@[simp] theorem State.updLists_irqMask (f : AxisId → CList → CList) : (s.updLists f).irqMask = s.irqMask := by rw [State.updLists]
@[simp] theorem State.updLists_pins (f : AxisId → CList → CList) : (s.updLists f).pins = s.pins := by rw [State.updLists]
@[simp] theorem State.updLists_axes (f : AxisId → CList → CList) : (s.updLists f).axes = s.axes := by rw [State.updLists]
@[simp] theorem State.updLists_pool (f : AxisId → CList → CList) : (s.updLists f).pool = s.pool := by rw [State.updLists]
@[simp] theorem State.updLists_channels (f : AxisId → CList → CList) : (s.updLists f).channels = s.channels := by rw [State.updLists]
@[simp] theorem State.updLists_lines (f : AxisId → CList → CList) : (s.updLists f).lines = s.lines := by rw [State.updLists]
@[simp] theorem State.updLists_monitor (f : AxisId → CList → CList) : (s.updLists f).monitor = s.monitor := by rw [State.updLists]
@[simp] theorem State.updLists_slots (f : AxisId → CList → CList) : (s.updLists f).slots = s.slots := by rw [State.updLists]
@[simp] theorem State.updLists_pairs (f : AxisId → CList → CList) : (s.updLists f).pairs = s.pairs := by rw [State.updLists]
@[simp] theorem State.updLists_procs (f : AxisId → CList → CList) : (s.updLists f).procs = s.procs := by rw [State.updLists]
@[simp] theorem State.updLists_nq (f : AxisId → CList → CList) : (s.updLists f).nq = s.nq := by rw [State.updLists]
@[simp] theorem State.updLists_engine (f : AxisId → CList → CList) : (s.updLists f).engine = s.engine := by rw [State.updLists]
@[simp] theorem State.updLists_lastServed (f : AxisId → CList → CList) : (s.updLists f).lastServed = s.lastServed := by rw [State.updLists]
@[simp] theorem State.updLists_cqReq (f : AxisId → CList → CList) : (s.updLists f).cqReq = s.cqReq := by rw [State.updLists]
@[simp] theorem State.updLists_nqReq (f : AxisId → CList → CList) : (s.updLists f).nqReq = s.nqReq := by rw [State.updLists]
@[simp] theorem State.updLists_writeQ (f : AxisId → CList → CList) : (s.updLists f).writeQ = s.writeQ := by rw [State.updLists]
@[simp] theorem State.updLists_onBus (f : AxisId → CList → CList) : (s.updLists f).onBus = s.onBus := by rw [State.updLists]
@[simp] theorem State.updLists_pending (f : AxisId → CList → CList) : (s.updLists f).pending = s.pending := by rw [State.updLists]

/-! `updChans` -/

@[simp] theorem State.updChans_ts (f : ChanId → Channel → Channel) : (s.updChans f).ts = s.ts := by rw [State.updChans]
@[simp] theorem State.updChans_resetting (f : ChanId → Channel → Channel) : (s.updChans f).resetting = s.resetting := by rw [State.updChans]
@[simp] theorem State.updChans_resetCause (f : ChanId → Channel → Channel) : (s.updChans f).resetCause = s.resetCause := by rw [State.updChans]
@[simp] theorem State.updChans_resetTick (f : ChanId → Channel → Channel) : (s.updChans f).resetTick = s.resetTick := by rw [State.updChans]
@[simp] theorem State.updChans_enable (f : ChanId → Channel → Channel) : (s.updChans f).enable = s.enable := by rw [State.updChans]
@[simp] theorem State.updChans_fault (f : ChanId → Channel → Channel) : (s.updChans f).fault = s.fault := by rw [State.updChans]
@[simp] theorem State.updChans_sbBase (f : ChanId → Channel → Channel) : (s.updChans f).sbBase = s.sbBase := by rw [State.updChans]
@[simp] theorem State.updChans_irqMask (f : ChanId → Channel → Channel) : (s.updChans f).irqMask = s.irqMask := by rw [State.updChans]
@[simp] theorem State.updChans_pins (f : ChanId → Channel → Channel) : (s.updChans f).pins = s.pins := by rw [State.updChans]
@[simp] theorem State.updChans_axes (f : ChanId → Channel → Channel) : (s.updChans f).axes = s.axes := by rw [State.updChans]
@[simp] theorem State.updChans_lists (f : ChanId → Channel → Channel) : (s.updChans f).lists = s.lists := by rw [State.updChans]
@[simp] theorem State.updChans_pool (f : ChanId → Channel → Channel) : (s.updChans f).pool = s.pool := by rw [State.updChans]
@[simp] theorem State.updChans_lines (f : ChanId → Channel → Channel) : (s.updChans f).lines = s.lines := by rw [State.updChans]
@[simp] theorem State.updChans_monitor (f : ChanId → Channel → Channel) : (s.updChans f).monitor = s.monitor := by rw [State.updChans]
@[simp] theorem State.updChans_slots (f : ChanId → Channel → Channel) : (s.updChans f).slots = s.slots := by rw [State.updChans]
@[simp] theorem State.updChans_pairs (f : ChanId → Channel → Channel) : (s.updChans f).pairs = s.pairs := by rw [State.updChans]
@[simp] theorem State.updChans_procs (f : ChanId → Channel → Channel) : (s.updChans f).procs = s.procs := by rw [State.updChans]
@[simp] theorem State.updChans_nq (f : ChanId → Channel → Channel) : (s.updChans f).nq = s.nq := by rw [State.updChans]
@[simp] theorem State.updChans_engine (f : ChanId → Channel → Channel) : (s.updChans f).engine = s.engine := by rw [State.updChans]
@[simp] theorem State.updChans_lastServed (f : ChanId → Channel → Channel) : (s.updChans f).lastServed = s.lastServed := by rw [State.updChans]
@[simp] theorem State.updChans_cqReq (f : ChanId → Channel → Channel) : (s.updChans f).cqReq = s.cqReq := by rw [State.updChans]
@[simp] theorem State.updChans_nqReq (f : ChanId → Channel → Channel) : (s.updChans f).nqReq = s.nqReq := by rw [State.updChans]
@[simp] theorem State.updChans_writeQ (f : ChanId → Channel → Channel) : (s.updChans f).writeQ = s.writeQ := by rw [State.updChans]
@[simp] theorem State.updChans_onBus (f : ChanId → Channel → Channel) : (s.updChans f).onBus = s.onBus := by rw [State.updChans]
@[simp] theorem State.updChans_pending (f : ChanId → Channel → Channel) : (s.updChans f).pending = s.pending := by rw [State.updChans]

/-! `updLines` -/

@[simp] theorem State.updLines_ts (f : LineId → Line → Line) : (s.updLines f).ts = s.ts := by rw [State.updLines]
@[simp] theorem State.updLines_resetting (f : LineId → Line → Line) : (s.updLines f).resetting = s.resetting := by rw [State.updLines]
@[simp] theorem State.updLines_resetCause (f : LineId → Line → Line) : (s.updLines f).resetCause = s.resetCause := by rw [State.updLines]
@[simp] theorem State.updLines_resetTick (f : LineId → Line → Line) : (s.updLines f).resetTick = s.resetTick := by rw [State.updLines]
@[simp] theorem State.updLines_enable (f : LineId → Line → Line) : (s.updLines f).enable = s.enable := by rw [State.updLines]
@[simp] theorem State.updLines_fault (f : LineId → Line → Line) : (s.updLines f).fault = s.fault := by rw [State.updLines]
@[simp] theorem State.updLines_sbBase (f : LineId → Line → Line) : (s.updLines f).sbBase = s.sbBase := by rw [State.updLines]
@[simp] theorem State.updLines_irqMask (f : LineId → Line → Line) : (s.updLines f).irqMask = s.irqMask := by rw [State.updLines]
@[simp] theorem State.updLines_pins (f : LineId → Line → Line) : (s.updLines f).pins = s.pins := by rw [State.updLines]
@[simp] theorem State.updLines_axes (f : LineId → Line → Line) : (s.updLines f).axes = s.axes := by rw [State.updLines]
@[simp] theorem State.updLines_lists (f : LineId → Line → Line) : (s.updLines f).lists = s.lists := by rw [State.updLines]
@[simp] theorem State.updLines_pool (f : LineId → Line → Line) : (s.updLines f).pool = s.pool := by rw [State.updLines]
@[simp] theorem State.updLines_channels (f : LineId → Line → Line) : (s.updLines f).channels = s.channels := by rw [State.updLines]
@[simp] theorem State.updLines_monitor (f : LineId → Line → Line) : (s.updLines f).monitor = s.monitor := by rw [State.updLines]
@[simp] theorem State.updLines_slots (f : LineId → Line → Line) : (s.updLines f).slots = s.slots := by rw [State.updLines]
@[simp] theorem State.updLines_pairs (f : LineId → Line → Line) : (s.updLines f).pairs = s.pairs := by rw [State.updLines]
@[simp] theorem State.updLines_procs (f : LineId → Line → Line) : (s.updLines f).procs = s.procs := by rw [State.updLines]
@[simp] theorem State.updLines_nq (f : LineId → Line → Line) : (s.updLines f).nq = s.nq := by rw [State.updLines]
@[simp] theorem State.updLines_engine (f : LineId → Line → Line) : (s.updLines f).engine = s.engine := by rw [State.updLines]
@[simp] theorem State.updLines_lastServed (f : LineId → Line → Line) : (s.updLines f).lastServed = s.lastServed := by rw [State.updLines]
@[simp] theorem State.updLines_cqReq (f : LineId → Line → Line) : (s.updLines f).cqReq = s.cqReq := by rw [State.updLines]
@[simp] theorem State.updLines_nqReq (f : LineId → Line → Line) : (s.updLines f).nqReq = s.nqReq := by rw [State.updLines]
@[simp] theorem State.updLines_writeQ (f : LineId → Line → Line) : (s.updLines f).writeQ = s.writeQ := by rw [State.updLines]
@[simp] theorem State.updLines_onBus (f : LineId → Line → Line) : (s.updLines f).onBus = s.onBus := by rw [State.updLines]
@[simp] theorem State.updLines_pending (f : LineId → Line → Line) : (s.updLines f).pending = s.pending := by rw [State.updLines]

/-! `updSlots` -/

@[simp] theorem State.updSlots_ts (f : SlotId → Slot → Slot) : (s.updSlots f).ts = s.ts := by rw [State.updSlots]
@[simp] theorem State.updSlots_resetting (f : SlotId → Slot → Slot) : (s.updSlots f).resetting = s.resetting := by rw [State.updSlots]
@[simp] theorem State.updSlots_resetCause (f : SlotId → Slot → Slot) : (s.updSlots f).resetCause = s.resetCause := by rw [State.updSlots]
@[simp] theorem State.updSlots_resetTick (f : SlotId → Slot → Slot) : (s.updSlots f).resetTick = s.resetTick := by rw [State.updSlots]
@[simp] theorem State.updSlots_enable (f : SlotId → Slot → Slot) : (s.updSlots f).enable = s.enable := by rw [State.updSlots]
@[simp] theorem State.updSlots_fault (f : SlotId → Slot → Slot) : (s.updSlots f).fault = s.fault := by rw [State.updSlots]
@[simp] theorem State.updSlots_sbBase (f : SlotId → Slot → Slot) : (s.updSlots f).sbBase = s.sbBase := by rw [State.updSlots]
@[simp] theorem State.updSlots_irqMask (f : SlotId → Slot → Slot) : (s.updSlots f).irqMask = s.irqMask := by rw [State.updSlots]
@[simp] theorem State.updSlots_pins (f : SlotId → Slot → Slot) : (s.updSlots f).pins = s.pins := by rw [State.updSlots]
@[simp] theorem State.updSlots_axes (f : SlotId → Slot → Slot) : (s.updSlots f).axes = s.axes := by rw [State.updSlots]
@[simp] theorem State.updSlots_lists (f : SlotId → Slot → Slot) : (s.updSlots f).lists = s.lists := by rw [State.updSlots]
@[simp] theorem State.updSlots_pool (f : SlotId → Slot → Slot) : (s.updSlots f).pool = s.pool := by rw [State.updSlots]
@[simp] theorem State.updSlots_channels (f : SlotId → Slot → Slot) : (s.updSlots f).channels = s.channels := by rw [State.updSlots]
@[simp] theorem State.updSlots_lines (f : SlotId → Slot → Slot) : (s.updSlots f).lines = s.lines := by rw [State.updSlots]
@[simp] theorem State.updSlots_monitor (f : SlotId → Slot → Slot) : (s.updSlots f).monitor = s.monitor := by rw [State.updSlots]
@[simp] theorem State.updSlots_pairs (f : SlotId → Slot → Slot) : (s.updSlots f).pairs = s.pairs := by rw [State.updSlots]
@[simp] theorem State.updSlots_procs (f : SlotId → Slot → Slot) : (s.updSlots f).procs = s.procs := by rw [State.updSlots]
@[simp] theorem State.updSlots_nq (f : SlotId → Slot → Slot) : (s.updSlots f).nq = s.nq := by rw [State.updSlots]
@[simp] theorem State.updSlots_engine (f : SlotId → Slot → Slot) : (s.updSlots f).engine = s.engine := by rw [State.updSlots]
@[simp] theorem State.updSlots_lastServed (f : SlotId → Slot → Slot) : (s.updSlots f).lastServed = s.lastServed := by rw [State.updSlots]
@[simp] theorem State.updSlots_cqReq (f : SlotId → Slot → Slot) : (s.updSlots f).cqReq = s.cqReq := by rw [State.updSlots]
@[simp] theorem State.updSlots_nqReq (f : SlotId → Slot → Slot) : (s.updSlots f).nqReq = s.nqReq := by rw [State.updSlots]
@[simp] theorem State.updSlots_writeQ (f : SlotId → Slot → Slot) : (s.updSlots f).writeQ = s.writeQ := by rw [State.updSlots]
@[simp] theorem State.updSlots_onBus (f : SlotId → Slot → Slot) : (s.updSlots f).onBus = s.onBus := by rw [State.updSlots]
@[simp] theorem State.updSlots_pending (f : SlotId → Slot → Slot) : (s.updSlots f).pending = s.pending := by rw [State.updSlots]

/-! `updProcs` -/

@[simp] theorem State.updProcs_ts (f : PairId → Proc → Proc) : (s.updProcs f).ts = s.ts := by rw [State.updProcs]
@[simp] theorem State.updProcs_resetting (f : PairId → Proc → Proc) : (s.updProcs f).resetting = s.resetting := by rw [State.updProcs]
@[simp] theorem State.updProcs_resetCause (f : PairId → Proc → Proc) : (s.updProcs f).resetCause = s.resetCause := by rw [State.updProcs]
@[simp] theorem State.updProcs_resetTick (f : PairId → Proc → Proc) : (s.updProcs f).resetTick = s.resetTick := by rw [State.updProcs]
@[simp] theorem State.updProcs_enable (f : PairId → Proc → Proc) : (s.updProcs f).enable = s.enable := by rw [State.updProcs]
@[simp] theorem State.updProcs_fault (f : PairId → Proc → Proc) : (s.updProcs f).fault = s.fault := by rw [State.updProcs]
@[simp] theorem State.updProcs_sbBase (f : PairId → Proc → Proc) : (s.updProcs f).sbBase = s.sbBase := by rw [State.updProcs]
@[simp] theorem State.updProcs_irqMask (f : PairId → Proc → Proc) : (s.updProcs f).irqMask = s.irqMask := by rw [State.updProcs]
@[simp] theorem State.updProcs_pins (f : PairId → Proc → Proc) : (s.updProcs f).pins = s.pins := by rw [State.updProcs]
@[simp] theorem State.updProcs_axes (f : PairId → Proc → Proc) : (s.updProcs f).axes = s.axes := by rw [State.updProcs]
@[simp] theorem State.updProcs_lists (f : PairId → Proc → Proc) : (s.updProcs f).lists = s.lists := by rw [State.updProcs]
@[simp] theorem State.updProcs_pool (f : PairId → Proc → Proc) : (s.updProcs f).pool = s.pool := by rw [State.updProcs]
@[simp] theorem State.updProcs_channels (f : PairId → Proc → Proc) : (s.updProcs f).channels = s.channels := by rw [State.updProcs]
@[simp] theorem State.updProcs_lines (f : PairId → Proc → Proc) : (s.updProcs f).lines = s.lines := by rw [State.updProcs]
@[simp] theorem State.updProcs_monitor (f : PairId → Proc → Proc) : (s.updProcs f).monitor = s.monitor := by rw [State.updProcs]
@[simp] theorem State.updProcs_slots (f : PairId → Proc → Proc) : (s.updProcs f).slots = s.slots := by rw [State.updProcs]
@[simp] theorem State.updProcs_pairs (f : PairId → Proc → Proc) : (s.updProcs f).pairs = s.pairs := by rw [State.updProcs]
@[simp] theorem State.updProcs_nq (f : PairId → Proc → Proc) : (s.updProcs f).nq = s.nq := by rw [State.updProcs]
@[simp] theorem State.updProcs_engine (f : PairId → Proc → Proc) : (s.updProcs f).engine = s.engine := by rw [State.updProcs]
@[simp] theorem State.updProcs_lastServed (f : PairId → Proc → Proc) : (s.updProcs f).lastServed = s.lastServed := by rw [State.updProcs]
@[simp] theorem State.updProcs_cqReq (f : PairId → Proc → Proc) : (s.updProcs f).cqReq = s.cqReq := by rw [State.updProcs]
@[simp] theorem State.updProcs_nqReq (f : PairId → Proc → Proc) : (s.updProcs f).nqReq = s.nqReq := by rw [State.updProcs]
@[simp] theorem State.updProcs_writeQ (f : PairId → Proc → Proc) : (s.updProcs f).writeQ = s.writeQ := by rw [State.updProcs]
@[simp] theorem State.updProcs_onBus (f : PairId → Proc → Proc) : (s.updProcs f).onBus = s.onBus := by rw [State.updProcs]
@[simp] theorem State.updProcs_pending (f : PairId → Proc → Proc) : (s.updProcs f).pending = s.pending := by rw [State.updProcs]

/-! `tellList` -/

@[simp] theorem State.tellList_ts (a : AxisId) (m : ListMsg) : (s.tellList a m).ts = s.ts := rfl
@[simp] theorem State.tellList_resetting (a : AxisId) (m : ListMsg) : (s.tellList a m).resetting = s.resetting := rfl
@[simp] theorem State.tellList_resetCause (a : AxisId) (m : ListMsg) : (s.tellList a m).resetCause = s.resetCause := rfl
@[simp] theorem State.tellList_resetTick (a : AxisId) (m : ListMsg) : (s.tellList a m).resetTick = s.resetTick := rfl
@[simp] theorem State.tellList_enable (a : AxisId) (m : ListMsg) : (s.tellList a m).enable = s.enable := rfl
@[simp] theorem State.tellList_fault (a : AxisId) (m : ListMsg) : (s.tellList a m).fault = s.fault := rfl
@[simp] theorem State.tellList_sbBase (a : AxisId) (m : ListMsg) : (s.tellList a m).sbBase = s.sbBase := rfl
@[simp] theorem State.tellList_irqMask (a : AxisId) (m : ListMsg) : (s.tellList a m).irqMask = s.irqMask := rfl
@[simp] theorem State.tellList_pins (a : AxisId) (m : ListMsg) : (s.tellList a m).pins = s.pins := rfl
@[simp] theorem State.tellList_axes (a : AxisId) (m : ListMsg) : (s.tellList a m).axes = s.axes := rfl
@[simp] theorem State.tellList_pool (a : AxisId) (m : ListMsg) : (s.tellList a m).pool = s.pool := rfl
@[simp] theorem State.tellList_channels (a : AxisId) (m : ListMsg) : (s.tellList a m).channels = s.channels := rfl
@[simp] theorem State.tellList_lines (a : AxisId) (m : ListMsg) : (s.tellList a m).lines = s.lines := rfl
@[simp] theorem State.tellList_monitor (a : AxisId) (m : ListMsg) : (s.tellList a m).monitor = s.monitor := rfl
@[simp] theorem State.tellList_slots (a : AxisId) (m : ListMsg) : (s.tellList a m).slots = s.slots := rfl
@[simp] theorem State.tellList_pairs (a : AxisId) (m : ListMsg) : (s.tellList a m).pairs = s.pairs := rfl
@[simp] theorem State.tellList_procs (a : AxisId) (m : ListMsg) : (s.tellList a m).procs = s.procs := rfl
@[simp] theorem State.tellList_nq (a : AxisId) (m : ListMsg) : (s.tellList a m).nq = s.nq := rfl
@[simp] theorem State.tellList_engine (a : AxisId) (m : ListMsg) : (s.tellList a m).engine = s.engine := rfl
@[simp] theorem State.tellList_lastServed (a : AxisId) (m : ListMsg) : (s.tellList a m).lastServed = s.lastServed := rfl
@[simp] theorem State.tellList_cqReq (a : AxisId) (m : ListMsg) : (s.tellList a m).cqReq = s.cqReq := rfl
@[simp] theorem State.tellList_nqReq (a : AxisId) (m : ListMsg) : (s.tellList a m).nqReq = s.nqReq := rfl
@[simp] theorem State.tellList_writeQ (a : AxisId) (m : ListMsg) : (s.tellList a m).writeQ = s.writeQ := rfl
@[simp] theorem State.tellList_onBus (a : AxisId) (m : ListMsg) : (s.tellList a m).onBus = s.onBus := rfl
@[simp] theorem State.tellList_pending (a : AxisId) (m : ListMsg) : (s.tellList a m).pending = s.pending := rfl

/-! `tellLines` -/

@[simp] theorem State.tellLines_ts (a : AxisId) (m : LineMsg) : (s.tellLines a m).ts = s.ts := by simp only [State.tellLines, State.updLines_ts]
@[simp] theorem State.tellLines_resetting (a : AxisId) (m : LineMsg) : (s.tellLines a m).resetting = s.resetting := by simp only [State.tellLines, State.updLines_resetting]
@[simp] theorem State.tellLines_resetCause (a : AxisId) (m : LineMsg) : (s.tellLines a m).resetCause = s.resetCause := by simp only [State.tellLines, State.updLines_resetCause]
@[simp] theorem State.tellLines_resetTick (a : AxisId) (m : LineMsg) : (s.tellLines a m).resetTick = s.resetTick := by simp only [State.tellLines, State.updLines_resetTick]
@[simp] theorem State.tellLines_enable (a : AxisId) (m : LineMsg) : (s.tellLines a m).enable = s.enable := by simp only [State.tellLines, State.updLines_enable]
@[simp] theorem State.tellLines_fault (a : AxisId) (m : LineMsg) : (s.tellLines a m).fault = s.fault := by simp only [State.tellLines, State.updLines_fault]
@[simp] theorem State.tellLines_sbBase (a : AxisId) (m : LineMsg) : (s.tellLines a m).sbBase = s.sbBase := by simp only [State.tellLines, State.updLines_sbBase]
@[simp] theorem State.tellLines_irqMask (a : AxisId) (m : LineMsg) : (s.tellLines a m).irqMask = s.irqMask := by simp only [State.tellLines, State.updLines_irqMask]
@[simp] theorem State.tellLines_pins (a : AxisId) (m : LineMsg) : (s.tellLines a m).pins = s.pins := by simp only [State.tellLines, State.updLines_pins]
@[simp] theorem State.tellLines_axes (a : AxisId) (m : LineMsg) : (s.tellLines a m).axes = s.axes := by simp only [State.tellLines, State.updLines_axes]
@[simp] theorem State.tellLines_lists (a : AxisId) (m : LineMsg) : (s.tellLines a m).lists = s.lists := by simp only [State.tellLines, State.updLines_lists]
@[simp] theorem State.tellLines_pool (a : AxisId) (m : LineMsg) : (s.tellLines a m).pool = s.pool := by simp only [State.tellLines, State.updLines_pool]
@[simp] theorem State.tellLines_channels (a : AxisId) (m : LineMsg) : (s.tellLines a m).channels = s.channels := by simp only [State.tellLines, State.updLines_channels]
@[simp] theorem State.tellLines_monitor (a : AxisId) (m : LineMsg) : (s.tellLines a m).monitor = s.monitor := by simp only [State.tellLines, State.updLines_monitor]
@[simp] theorem State.tellLines_slots (a : AxisId) (m : LineMsg) : (s.tellLines a m).slots = s.slots := by simp only [State.tellLines, State.updLines_slots]
@[simp] theorem State.tellLines_pairs (a : AxisId) (m : LineMsg) : (s.tellLines a m).pairs = s.pairs := by simp only [State.tellLines, State.updLines_pairs]
@[simp] theorem State.tellLines_procs (a : AxisId) (m : LineMsg) : (s.tellLines a m).procs = s.procs := by simp only [State.tellLines, State.updLines_procs]
@[simp] theorem State.tellLines_nq (a : AxisId) (m : LineMsg) : (s.tellLines a m).nq = s.nq := by simp only [State.tellLines, State.updLines_nq]
@[simp] theorem State.tellLines_engine (a : AxisId) (m : LineMsg) : (s.tellLines a m).engine = s.engine := by simp only [State.tellLines, State.updLines_engine]
@[simp] theorem State.tellLines_lastServed (a : AxisId) (m : LineMsg) : (s.tellLines a m).lastServed = s.lastServed := by simp only [State.tellLines, State.updLines_lastServed]
@[simp] theorem State.tellLines_cqReq (a : AxisId) (m : LineMsg) : (s.tellLines a m).cqReq = s.cqReq := by simp only [State.tellLines, State.updLines_cqReq]
@[simp] theorem State.tellLines_nqReq (a : AxisId) (m : LineMsg) : (s.tellLines a m).nqReq = s.nqReq := by simp only [State.tellLines, State.updLines_nqReq]
@[simp] theorem State.tellLines_writeQ (a : AxisId) (m : LineMsg) : (s.tellLines a m).writeQ = s.writeQ := by simp only [State.tellLines, State.updLines_writeQ]
@[simp] theorem State.tellLines_onBus (a : AxisId) (m : LineMsg) : (s.tellLines a m).onBus = s.onBus := by simp only [State.tellLines, State.updLines_onBus]
@[simp] theorem State.tellLines_pending (a : AxisId) (m : LineMsg) : (s.tellLines a m).pending = s.pending := by simp only [State.tellLines, State.updLines_pending]

/-! `tellChans` -/

@[simp] theorem State.tellChans_ts (a : AxisId) (m : ChanMsg) : (s.tellChans a m).ts = s.ts := by simp only [State.tellChans, State.updChans_ts]
@[simp] theorem State.tellChans_resetting (a : AxisId) (m : ChanMsg) : (s.tellChans a m).resetting = s.resetting := by simp only [State.tellChans, State.updChans_resetting]
@[simp] theorem State.tellChans_resetCause (a : AxisId) (m : ChanMsg) : (s.tellChans a m).resetCause = s.resetCause := by simp only [State.tellChans, State.updChans_resetCause]
@[simp] theorem State.tellChans_resetTick (a : AxisId) (m : ChanMsg) : (s.tellChans a m).resetTick = s.resetTick := by simp only [State.tellChans, State.updChans_resetTick]
@[simp] theorem State.tellChans_enable (a : AxisId) (m : ChanMsg) : (s.tellChans a m).enable = s.enable := by simp only [State.tellChans, State.updChans_enable]
@[simp] theorem State.tellChans_fault (a : AxisId) (m : ChanMsg) : (s.tellChans a m).fault = s.fault := by simp only [State.tellChans, State.updChans_fault]
@[simp] theorem State.tellChans_sbBase (a : AxisId) (m : ChanMsg) : (s.tellChans a m).sbBase = s.sbBase := by simp only [State.tellChans, State.updChans_sbBase]
@[simp] theorem State.tellChans_irqMask (a : AxisId) (m : ChanMsg) : (s.tellChans a m).irqMask = s.irqMask := by simp only [State.tellChans, State.updChans_irqMask]
@[simp] theorem State.tellChans_pins (a : AxisId) (m : ChanMsg) : (s.tellChans a m).pins = s.pins := by simp only [State.tellChans, State.updChans_pins]
@[simp] theorem State.tellChans_axes (a : AxisId) (m : ChanMsg) : (s.tellChans a m).axes = s.axes := by simp only [State.tellChans, State.updChans_axes]
@[simp] theorem State.tellChans_lists (a : AxisId) (m : ChanMsg) : (s.tellChans a m).lists = s.lists := by simp only [State.tellChans, State.updChans_lists]
@[simp] theorem State.tellChans_pool (a : AxisId) (m : ChanMsg) : (s.tellChans a m).pool = s.pool := by simp only [State.tellChans, State.updChans_pool]
@[simp] theorem State.tellChans_lines (a : AxisId) (m : ChanMsg) : (s.tellChans a m).lines = s.lines := by simp only [State.tellChans, State.updChans_lines]
@[simp] theorem State.tellChans_monitor (a : AxisId) (m : ChanMsg) : (s.tellChans a m).monitor = s.monitor := by simp only [State.tellChans, State.updChans_monitor]
@[simp] theorem State.tellChans_slots (a : AxisId) (m : ChanMsg) : (s.tellChans a m).slots = s.slots := by simp only [State.tellChans, State.updChans_slots]
@[simp] theorem State.tellChans_pairs (a : AxisId) (m : ChanMsg) : (s.tellChans a m).pairs = s.pairs := by simp only [State.tellChans, State.updChans_pairs]
@[simp] theorem State.tellChans_procs (a : AxisId) (m : ChanMsg) : (s.tellChans a m).procs = s.procs := by simp only [State.tellChans, State.updChans_procs]
@[simp] theorem State.tellChans_nq (a : AxisId) (m : ChanMsg) : (s.tellChans a m).nq = s.nq := by simp only [State.tellChans, State.updChans_nq]
@[simp] theorem State.tellChans_engine (a : AxisId) (m : ChanMsg) : (s.tellChans a m).engine = s.engine := by simp only [State.tellChans, State.updChans_engine]
@[simp] theorem State.tellChans_lastServed (a : AxisId) (m : ChanMsg) : (s.tellChans a m).lastServed = s.lastServed := by simp only [State.tellChans, State.updChans_lastServed]
@[simp] theorem State.tellChans_cqReq (a : AxisId) (m : ChanMsg) : (s.tellChans a m).cqReq = s.cqReq := by simp only [State.tellChans, State.updChans_cqReq]
@[simp] theorem State.tellChans_nqReq (a : AxisId) (m : ChanMsg) : (s.tellChans a m).nqReq = s.nqReq := by simp only [State.tellChans, State.updChans_nqReq]
@[simp] theorem State.tellChans_writeQ (a : AxisId) (m : ChanMsg) : (s.tellChans a m).writeQ = s.writeQ := by simp only [State.tellChans, State.updChans_writeQ]
@[simp] theorem State.tellChans_onBus (a : AxisId) (m : ChanMsg) : (s.tellChans a m).onBus = s.onBus := by simp only [State.tellChans, State.updChans_onBus]
@[simp] theorem State.tellChans_pending (a : AxisId) (m : ChanMsg) : (s.tellChans a m).pending = s.pending := by simp only [State.tellChans, State.updChans_pending]

/-! `sendAction` -/

@[simp] theorem State.sendAction_ts (n : LineId) (f : FireAction) : (s.sendAction n f).ts = s.ts := rfl
@[simp] theorem State.sendAction_resetting (n : LineId) (f : FireAction) : (s.sendAction n f).resetting = s.resetting := rfl
@[simp] theorem State.sendAction_resetCause (n : LineId) (f : FireAction) : (s.sendAction n f).resetCause = s.resetCause := rfl
@[simp] theorem State.sendAction_resetTick (n : LineId) (f : FireAction) : (s.sendAction n f).resetTick = s.resetTick := rfl
@[simp] theorem State.sendAction_enable (n : LineId) (f : FireAction) : (s.sendAction n f).enable = s.enable := rfl
@[simp] theorem State.sendAction_fault (n : LineId) (f : FireAction) : (s.sendAction n f).fault = s.fault := rfl
@[simp] theorem State.sendAction_sbBase (n : LineId) (f : FireAction) : (s.sendAction n f).sbBase = s.sbBase := rfl
@[simp] theorem State.sendAction_irqMask (n : LineId) (f : FireAction) : (s.sendAction n f).irqMask = s.irqMask := rfl
@[simp] theorem State.sendAction_pins (n : LineId) (f : FireAction) : (s.sendAction n f).pins = s.pins := rfl
@[simp] theorem State.sendAction_axes (n : LineId) (f : FireAction) : (s.sendAction n f).axes = s.axes := rfl
@[simp] theorem State.sendAction_lists (n : LineId) (f : FireAction) : (s.sendAction n f).lists = s.lists := rfl
@[simp] theorem State.sendAction_pool (n : LineId) (f : FireAction) : (s.sendAction n f).pool = s.pool := rfl
@[simp] theorem State.sendAction_channels (n : LineId) (f : FireAction) : (s.sendAction n f).channels = s.channels := rfl
@[simp] theorem State.sendAction_monitor (n : LineId) (f : FireAction) : (s.sendAction n f).monitor = s.monitor := rfl
@[simp] theorem State.sendAction_slots (n : LineId) (f : FireAction) : (s.sendAction n f).slots = s.slots := rfl
@[simp] theorem State.sendAction_pairs (n : LineId) (f : FireAction) : (s.sendAction n f).pairs = s.pairs := rfl
@[simp] theorem State.sendAction_procs (n : LineId) (f : FireAction) : (s.sendAction n f).procs = s.procs := rfl
@[simp] theorem State.sendAction_nq (n : LineId) (f : FireAction) : (s.sendAction n f).nq = s.nq := rfl
@[simp] theorem State.sendAction_engine (n : LineId) (f : FireAction) : (s.sendAction n f).engine = s.engine := rfl
@[simp] theorem State.sendAction_lastServed (n : LineId) (f : FireAction) : (s.sendAction n f).lastServed = s.lastServed := rfl
@[simp] theorem State.sendAction_cqReq (n : LineId) (f : FireAction) : (s.sendAction n f).cqReq = s.cqReq := rfl
@[simp] theorem State.sendAction_nqReq (n : LineId) (f : FireAction) : (s.sendAction n f).nqReq = s.nqReq := rfl
@[simp] theorem State.sendAction_writeQ (n : LineId) (f : FireAction) : (s.sendAction n f).writeQ = s.writeQ := rfl
@[simp] theorem State.sendAction_onBus (n : LineId) (f : FireAction) : (s.sendAction n f).onBus = s.onBus := rfl
@[simp] theorem State.sendAction_pending (n : LineId) (f : FireAction) : (s.sendAction n f).pending = s.pending := rfl

/-! `tellTrip` -/

@[simp] theorem State.tellTrip_ts (n : LineId) (m : TripMsg) : (s.tellTrip n m).ts = s.ts := rfl
@[simp] theorem State.tellTrip_resetting (n : LineId) (m : TripMsg) : (s.tellTrip n m).resetting = s.resetting := rfl
@[simp] theorem State.tellTrip_resetCause (n : LineId) (m : TripMsg) : (s.tellTrip n m).resetCause = s.resetCause := rfl
@[simp] theorem State.tellTrip_resetTick (n : LineId) (m : TripMsg) : (s.tellTrip n m).resetTick = s.resetTick := rfl
@[simp] theorem State.tellTrip_enable (n : LineId) (m : TripMsg) : (s.tellTrip n m).enable = s.enable := rfl
@[simp] theorem State.tellTrip_fault (n : LineId) (m : TripMsg) : (s.tellTrip n m).fault = s.fault := rfl
@[simp] theorem State.tellTrip_sbBase (n : LineId) (m : TripMsg) : (s.tellTrip n m).sbBase = s.sbBase := rfl
@[simp] theorem State.tellTrip_irqMask (n : LineId) (m : TripMsg) : (s.tellTrip n m).irqMask = s.irqMask := rfl
@[simp] theorem State.tellTrip_pins (n : LineId) (m : TripMsg) : (s.tellTrip n m).pins = s.pins := rfl
@[simp] theorem State.tellTrip_axes (n : LineId) (m : TripMsg) : (s.tellTrip n m).axes = s.axes := rfl
@[simp] theorem State.tellTrip_lists (n : LineId) (m : TripMsg) : (s.tellTrip n m).lists = s.lists := rfl
@[simp] theorem State.tellTrip_pool (n : LineId) (m : TripMsg) : (s.tellTrip n m).pool = s.pool := rfl
@[simp] theorem State.tellTrip_channels (n : LineId) (m : TripMsg) : (s.tellTrip n m).channels = s.channels := rfl
@[simp] theorem State.tellTrip_monitor (n : LineId) (m : TripMsg) : (s.tellTrip n m).monitor = s.monitor := rfl
@[simp] theorem State.tellTrip_slots (n : LineId) (m : TripMsg) : (s.tellTrip n m).slots = s.slots := rfl
@[simp] theorem State.tellTrip_pairs (n : LineId) (m : TripMsg) : (s.tellTrip n m).pairs = s.pairs := rfl
@[simp] theorem State.tellTrip_procs (n : LineId) (m : TripMsg) : (s.tellTrip n m).procs = s.procs := rfl
@[simp] theorem State.tellTrip_nq (n : LineId) (m : TripMsg) : (s.tellTrip n m).nq = s.nq := rfl
@[simp] theorem State.tellTrip_engine (n : LineId) (m : TripMsg) : (s.tellTrip n m).engine = s.engine := rfl
@[simp] theorem State.tellTrip_lastServed (n : LineId) (m : TripMsg) : (s.tellTrip n m).lastServed = s.lastServed := rfl
@[simp] theorem State.tellTrip_cqReq (n : LineId) (m : TripMsg) : (s.tellTrip n m).cqReq = s.cqReq := rfl
@[simp] theorem State.tellTrip_nqReq (n : LineId) (m : TripMsg) : (s.tellTrip n m).nqReq = s.nqReq := rfl
@[simp] theorem State.tellTrip_writeQ (n : LineId) (m : TripMsg) : (s.tellTrip n m).writeQ = s.writeQ := rfl
@[simp] theorem State.tellTrip_onBus (n : LineId) (m : TripMsg) : (s.tellTrip n m).onBus = s.onBus := rfl
@[simp] theorem State.tellTrip_pending (n : LineId) (m : TripMsg) : (s.tellTrip n m).pending = s.pending := rfl

/-! `sendHold` -/

@[simp] theorem State.sendHold_ts (a : AxisId) (c : Cause) : (s.sendHold a c).ts = s.ts := rfl
@[simp] theorem State.sendHold_resetting (a : AxisId) (c : Cause) : (s.sendHold a c).resetting = s.resetting := rfl
@[simp] theorem State.sendHold_resetCause (a : AxisId) (c : Cause) : (s.sendHold a c).resetCause = s.resetCause := rfl
@[simp] theorem State.sendHold_resetTick (a : AxisId) (c : Cause) : (s.sendHold a c).resetTick = s.resetTick := rfl
@[simp] theorem State.sendHold_enable (a : AxisId) (c : Cause) : (s.sendHold a c).enable = s.enable := rfl
@[simp] theorem State.sendHold_fault (a : AxisId) (c : Cause) : (s.sendHold a c).fault = s.fault := rfl
@[simp] theorem State.sendHold_sbBase (a : AxisId) (c : Cause) : (s.sendHold a c).sbBase = s.sbBase := rfl
@[simp] theorem State.sendHold_irqMask (a : AxisId) (c : Cause) : (s.sendHold a c).irqMask = s.irqMask := rfl
@[simp] theorem State.sendHold_pins (a : AxisId) (c : Cause) : (s.sendHold a c).pins = s.pins := rfl
@[simp] theorem State.sendHold_lists (a : AxisId) (c : Cause) : (s.sendHold a c).lists = s.lists := rfl
@[simp] theorem State.sendHold_pool (a : AxisId) (c : Cause) : (s.sendHold a c).pool = s.pool := rfl
@[simp] theorem State.sendHold_channels (a : AxisId) (c : Cause) : (s.sendHold a c).channels = s.channels := rfl
@[simp] theorem State.sendHold_lines (a : AxisId) (c : Cause) : (s.sendHold a c).lines = s.lines := rfl
@[simp] theorem State.sendHold_monitor (a : AxisId) (c : Cause) : (s.sendHold a c).monitor = s.monitor := rfl
@[simp] theorem State.sendHold_slots (a : AxisId) (c : Cause) : (s.sendHold a c).slots = s.slots := rfl
@[simp] theorem State.sendHold_pairs (a : AxisId) (c : Cause) : (s.sendHold a c).pairs = s.pairs := rfl
@[simp] theorem State.sendHold_procs (a : AxisId) (c : Cause) : (s.sendHold a c).procs = s.procs := rfl
@[simp] theorem State.sendHold_nq (a : AxisId) (c : Cause) : (s.sendHold a c).nq = s.nq := rfl
@[simp] theorem State.sendHold_engine (a : AxisId) (c : Cause) : (s.sendHold a c).engine = s.engine := rfl
@[simp] theorem State.sendHold_lastServed (a : AxisId) (c : Cause) : (s.sendHold a c).lastServed = s.lastServed := rfl
@[simp] theorem State.sendHold_cqReq (a : AxisId) (c : Cause) : (s.sendHold a c).cqReq = s.cqReq := rfl
@[simp] theorem State.sendHold_nqReq (a : AxisId) (c : Cause) : (s.sendHold a c).nqReq = s.nqReq := rfl
@[simp] theorem State.sendHold_writeQ (a : AxisId) (c : Cause) : (s.sendHold a c).writeQ = s.writeQ := rfl
@[simp] theorem State.sendHold_onBus (a : AxisId) (c : Cause) : (s.sendHold a c).onBus = s.onBus := rfl
@[simp] theorem State.sendHold_pending (a : AxisId) (c : Cause) : (s.sendHold a c).pending = s.pending := rfl

/-! `handNotice` -/

@[simp] theorem State.handNotice_ts (n : Notice) : (s.handNotice n).ts = s.ts := rfl
@[simp] theorem State.handNotice_resetting (n : Notice) : (s.handNotice n).resetting = s.resetting := rfl
@[simp] theorem State.handNotice_resetCause (n : Notice) : (s.handNotice n).resetCause = s.resetCause := rfl
@[simp] theorem State.handNotice_resetTick (n : Notice) : (s.handNotice n).resetTick = s.resetTick := rfl
@[simp] theorem State.handNotice_enable (n : Notice) : (s.handNotice n).enable = s.enable := rfl
@[simp] theorem State.handNotice_fault (n : Notice) : (s.handNotice n).fault = s.fault := rfl
@[simp] theorem State.handNotice_sbBase (n : Notice) : (s.handNotice n).sbBase = s.sbBase := rfl
@[simp] theorem State.handNotice_irqMask (n : Notice) : (s.handNotice n).irqMask = s.irqMask := rfl
@[simp] theorem State.handNotice_pins (n : Notice) : (s.handNotice n).pins = s.pins := rfl
@[simp] theorem State.handNotice_axes (n : Notice) : (s.handNotice n).axes = s.axes := rfl
@[simp] theorem State.handNotice_lists (n : Notice) : (s.handNotice n).lists = s.lists := rfl
@[simp] theorem State.handNotice_pool (n : Notice) : (s.handNotice n).pool = s.pool := rfl
@[simp] theorem State.handNotice_channels (n : Notice) : (s.handNotice n).channels = s.channels := rfl
@[simp] theorem State.handNotice_lines (n : Notice) : (s.handNotice n).lines = s.lines := rfl
@[simp] theorem State.handNotice_monitor (n : Notice) : (s.handNotice n).monitor = s.monitor := rfl
@[simp] theorem State.handNotice_slots (n : Notice) : (s.handNotice n).slots = s.slots := rfl
@[simp] theorem State.handNotice_pairs (n : Notice) : (s.handNotice n).pairs = s.pairs := rfl
@[simp] theorem State.handNotice_procs (n : Notice) : (s.handNotice n).procs = s.procs := rfl
@[simp] theorem State.handNotice_nq (n : Notice) : (s.handNotice n).nq = s.nq := rfl
@[simp] theorem State.handNotice_engine (n : Notice) : (s.handNotice n).engine = s.engine := rfl
@[simp] theorem State.handNotice_lastServed (n : Notice) : (s.handNotice n).lastServed = s.lastServed := rfl
@[simp] theorem State.handNotice_cqReq (n : Notice) : (s.handNotice n).cqReq = s.cqReq := rfl
@[simp] theorem State.handNotice_writeQ (n : Notice) : (s.handNotice n).writeQ = s.writeQ := rfl
@[simp] theorem State.handNotice_onBus (n : Notice) : (s.handNotice n).onBus = s.onBus := rfl
@[simp] theorem State.handNotice_pending (n : Notice) : (s.handNotice n).pending = s.pending := rfl

/-! `handReport` -/

@[simp] theorem State.handReport_ts (p : PairId) (q : CqRequest) : (s.handReport p q).ts = s.ts := rfl
@[simp] theorem State.handReport_resetting (p : PairId) (q : CqRequest) : (s.handReport p q).resetting = s.resetting := rfl
@[simp] theorem State.handReport_resetCause (p : PairId) (q : CqRequest) : (s.handReport p q).resetCause = s.resetCause := rfl
@[simp] theorem State.handReport_resetTick (p : PairId) (q : CqRequest) : (s.handReport p q).resetTick = s.resetTick := rfl
@[simp] theorem State.handReport_enable (p : PairId) (q : CqRequest) : (s.handReport p q).enable = s.enable := rfl
@[simp] theorem State.handReport_fault (p : PairId) (q : CqRequest) : (s.handReport p q).fault = s.fault := rfl
@[simp] theorem State.handReport_sbBase (p : PairId) (q : CqRequest) : (s.handReport p q).sbBase = s.sbBase := rfl
@[simp] theorem State.handReport_irqMask (p : PairId) (q : CqRequest) : (s.handReport p q).irqMask = s.irqMask := rfl
@[simp] theorem State.handReport_pins (p : PairId) (q : CqRequest) : (s.handReport p q).pins = s.pins := rfl
@[simp] theorem State.handReport_axes (p : PairId) (q : CqRequest) : (s.handReport p q).axes = s.axes := rfl
@[simp] theorem State.handReport_lists (p : PairId) (q : CqRequest) : (s.handReport p q).lists = s.lists := rfl
@[simp] theorem State.handReport_pool (p : PairId) (q : CqRequest) : (s.handReport p q).pool = s.pool := rfl
@[simp] theorem State.handReport_channels (p : PairId) (q : CqRequest) : (s.handReport p q).channels = s.channels := rfl
@[simp] theorem State.handReport_lines (p : PairId) (q : CqRequest) : (s.handReport p q).lines = s.lines := rfl
@[simp] theorem State.handReport_monitor (p : PairId) (q : CqRequest) : (s.handReport p q).monitor = s.monitor := rfl
@[simp] theorem State.handReport_slots (p : PairId) (q : CqRequest) : (s.handReport p q).slots = s.slots := rfl
@[simp] theorem State.handReport_pairs (p : PairId) (q : CqRequest) : (s.handReport p q).pairs = s.pairs := rfl
@[simp] theorem State.handReport_procs (p : PairId) (q : CqRequest) : (s.handReport p q).procs = s.procs := rfl
@[simp] theorem State.handReport_nq (p : PairId) (q : CqRequest) : (s.handReport p q).nq = s.nq := rfl
@[simp] theorem State.handReport_engine (p : PairId) (q : CqRequest) : (s.handReport p q).engine = s.engine := rfl
@[simp] theorem State.handReport_lastServed (p : PairId) (q : CqRequest) : (s.handReport p q).lastServed = s.lastServed := rfl
@[simp] theorem State.handReport_nqReq (p : PairId) (q : CqRequest) : (s.handReport p q).nqReq = s.nqReq := rfl
@[simp] theorem State.handReport_writeQ (p : PairId) (q : CqRequest) : (s.handReport p q).writeQ = s.writeQ := rfl
@[simp] theorem State.handReport_onBus (p : PairId) (q : CqRequest) : (s.handReport p q).onBus = s.onBus := rfl
@[simp] theorem State.handReport_pending (p : PairId) (q : CqRequest) : (s.handReport p q).pending = s.pending := rfl

/-! `startRecord` -/

@[simp] theorem State.startRecord_ts (p : PairId) (r : Record) : (s.startRecord p r).ts = s.ts := rfl
@[simp] theorem State.startRecord_resetting (p : PairId) (r : Record) : (s.startRecord p r).resetting = s.resetting := rfl
@[simp] theorem State.startRecord_resetCause (p : PairId) (r : Record) : (s.startRecord p r).resetCause = s.resetCause := rfl
@[simp] theorem State.startRecord_resetTick (p : PairId) (r : Record) : (s.startRecord p r).resetTick = s.resetTick := rfl
@[simp] theorem State.startRecord_enable (p : PairId) (r : Record) : (s.startRecord p r).enable = s.enable := rfl
@[simp] theorem State.startRecord_fault (p : PairId) (r : Record) : (s.startRecord p r).fault = s.fault := rfl
@[simp] theorem State.startRecord_sbBase (p : PairId) (r : Record) : (s.startRecord p r).sbBase = s.sbBase := rfl
@[simp] theorem State.startRecord_irqMask (p : PairId) (r : Record) : (s.startRecord p r).irqMask = s.irqMask := rfl
@[simp] theorem State.startRecord_pins (p : PairId) (r : Record) : (s.startRecord p r).pins = s.pins := rfl
@[simp] theorem State.startRecord_axes (p : PairId) (r : Record) : (s.startRecord p r).axes = s.axes := rfl
@[simp] theorem State.startRecord_lists (p : PairId) (r : Record) : (s.startRecord p r).lists = s.lists := rfl
@[simp] theorem State.startRecord_pool (p : PairId) (r : Record) : (s.startRecord p r).pool = s.pool := rfl
@[simp] theorem State.startRecord_channels (p : PairId) (r : Record) : (s.startRecord p r).channels = s.channels := rfl
@[simp] theorem State.startRecord_lines (p : PairId) (r : Record) : (s.startRecord p r).lines = s.lines := rfl
@[simp] theorem State.startRecord_monitor (p : PairId) (r : Record) : (s.startRecord p r).monitor = s.monitor := rfl
@[simp] theorem State.startRecord_slots (p : PairId) (r : Record) : (s.startRecord p r).slots = s.slots := rfl
@[simp] theorem State.startRecord_nq (p : PairId) (r : Record) : (s.startRecord p r).nq = s.nq := rfl
@[simp] theorem State.startRecord_lastServed (p : PairId) (r : Record) : (s.startRecord p r).lastServed = s.lastServed := rfl
@[simp] theorem State.startRecord_cqReq (p : PairId) (r : Record) : (s.startRecord p r).cqReq = s.cqReq := rfl
@[simp] theorem State.startRecord_nqReq (p : PairId) (r : Record) : (s.startRecord p r).nqReq = s.nqReq := rfl
@[simp] theorem State.startRecord_onBus (p : PairId) (r : Record) : (s.startRecord p r).onBus = s.onBus := rfl
@[simp] theorem State.startRecord_pending (p : PairId) (r : Record) : (s.startRecord p r).pending = s.pending := rfl

/-! `release` -/

@[simp] theorem State.release_ts (e : Entry) : (s.release e).ts = s.ts := by simp [State.release]
@[simp] theorem State.release_resetting (e : Entry) : (s.release e).resetting = s.resetting := by simp [State.release]
@[simp] theorem State.release_resetCause (e : Entry) : (s.release e).resetCause = s.resetCause := by simp [State.release]
@[simp] theorem State.release_resetTick (e : Entry) : (s.release e).resetTick = s.resetTick := by simp [State.release]
@[simp] theorem State.release_enable (e : Entry) : (s.release e).enable = s.enable := by simp [State.release]
@[simp] theorem State.release_fault (e : Entry) : (s.release e).fault = s.fault := by simp [State.release]
@[simp] theorem State.release_sbBase (e : Entry) : (s.release e).sbBase = s.sbBase := by simp [State.release]
@[simp] theorem State.release_irqMask (e : Entry) : (s.release e).irqMask = s.irqMask := by simp [State.release]
@[simp] theorem State.release_pins (e : Entry) : (s.release e).pins = s.pins := by simp [State.release]
@[simp] theorem State.release_axes (e : Entry) : (s.release e).axes = s.axes := by simp [State.release]
@[simp] theorem State.release_lists (e : Entry) : (s.release e).lists = s.lists := by simp [State.release]
@[simp] theorem State.release_channels (e : Entry) : (s.release e).channels = s.channels := by simp [State.release]
@[simp] theorem State.release_monitor (e : Entry) : (s.release e).monitor = s.monitor := by simp [State.release]
@[simp] theorem State.release_slots (e : Entry) : (s.release e).slots = s.slots := by simp [State.release]
@[simp] theorem State.release_pairs (e : Entry) : (s.release e).pairs = s.pairs := by simp [State.release]
@[simp] theorem State.release_nq (e : Entry) : (s.release e).nq = s.nq := by simp [State.release]
@[simp] theorem State.release_engine (e : Entry) : (s.release e).engine = s.engine := by simp [State.release]
@[simp] theorem State.release_lastServed (e : Entry) : (s.release e).lastServed = s.lastServed := by simp [State.release]
@[simp] theorem State.release_cqReq (e : Entry) : (s.release e).cqReq = s.cqReq := by simp [State.release]
@[simp] theorem State.release_nqReq (e : Entry) : (s.release e).nqReq = s.nqReq := by simp [State.release]
@[simp] theorem State.release_writeQ (e : Entry) : (s.release e).writeQ = s.writeQ := by simp [State.release]
@[simp] theorem State.release_onBus (e : Entry) : (s.release e).onBus = s.onBus := by simp [State.release]
@[simp] theorem State.release_pending (e : Entry) : (s.release e).pending = s.pending := by simp [State.release]

/-! `retire` -/

@[simp] theorem State.retire_ts (e : Entry) : (s.retire e).ts = s.ts := by simp [State.retire]
@[simp] theorem State.retire_resetting (e : Entry) : (s.retire e).resetting = s.resetting := by simp [State.retire]
@[simp] theorem State.retire_resetCause (e : Entry) : (s.retire e).resetCause = s.resetCause := by simp [State.retire]
@[simp] theorem State.retire_resetTick (e : Entry) : (s.retire e).resetTick = s.resetTick := by simp [State.retire]
@[simp] theorem State.retire_enable (e : Entry) : (s.retire e).enable = s.enable := by simp [State.retire]
@[simp] theorem State.retire_fault (e : Entry) : (s.retire e).fault = s.fault := by simp [State.retire]
@[simp] theorem State.retire_sbBase (e : Entry) : (s.retire e).sbBase = s.sbBase := by simp [State.retire]
@[simp] theorem State.retire_irqMask (e : Entry) : (s.retire e).irqMask = s.irqMask := by simp [State.retire]
@[simp] theorem State.retire_pins (e : Entry) : (s.retire e).pins = s.pins := by simp [State.retire]
@[simp] theorem State.retire_axes (e : Entry) : (s.retire e).axes = s.axes := by simp [State.retire]
@[simp] theorem State.retire_lists (e : Entry) : (s.retire e).lists = s.lists := by simp [State.retire]
@[simp] theorem State.retire_channels (e : Entry) : (s.retire e).channels = s.channels := by simp [State.retire]
@[simp] theorem State.retire_monitor (e : Entry) : (s.retire e).monitor = s.monitor := by simp [State.retire]
@[simp] theorem State.retire_slots (e : Entry) : (s.retire e).slots = s.slots := by simp [State.retire]
@[simp] theorem State.retire_pairs (e : Entry) : (s.retire e).pairs = s.pairs := by simp [State.retire]
@[simp] theorem State.retire_nq (e : Entry) : (s.retire e).nq = s.nq := by simp [State.retire]
@[simp] theorem State.retire_engine (e : Entry) : (s.retire e).engine = s.engine := by simp [State.retire]
@[simp] theorem State.retire_lastServed (e : Entry) : (s.retire e).lastServed = s.lastServed := by simp [State.retire]
@[simp] theorem State.retire_cqReq (e : Entry) : (s.retire e).cqReq = s.cqReq := by simp [State.retire]
@[simp] theorem State.retire_nqReq (e : Entry) : (s.retire e).nqReq = s.nqReq := by simp [State.retire]
@[simp] theorem State.retire_writeQ (e : Entry) : (s.retire e).writeQ = s.writeQ := by simp [State.retire]
@[simp] theorem State.retire_onBus (e : Entry) : (s.retire e).onBus = s.onBus := by simp [State.retire]
@[simp] theorem State.retire_pending (e : Entry) : (s.retire e).pending = s.pending := by simp [State.retire]

/-! `handAck` -/

@[simp] theorem State.handAck_ts (p : PairId) (st : Status) (d t : Nat) : (s.handAck p st d t).ts = s.ts := by
  unfold State.handAck; split <;> rfl
@[simp] theorem State.handAck_resetting (p : PairId) (st : Status) (d t : Nat) : (s.handAck p st d t).resetting = s.resetting := by
  unfold State.handAck; split <;> rfl
@[simp] theorem State.handAck_resetCause (p : PairId) (st : Status) (d t : Nat) : (s.handAck p st d t).resetCause = s.resetCause := by
  unfold State.handAck; split <;> rfl
@[simp] theorem State.handAck_resetTick (p : PairId) (st : Status) (d t : Nat) : (s.handAck p st d t).resetTick = s.resetTick := by
  unfold State.handAck; split <;> rfl
@[simp] theorem State.handAck_enable (p : PairId) (st : Status) (d t : Nat) : (s.handAck p st d t).enable = s.enable := by
  unfold State.handAck; split <;> rfl
@[simp] theorem State.handAck_fault (p : PairId) (st : Status) (d t : Nat) : (s.handAck p st d t).fault = s.fault := by
  unfold State.handAck; split <;> rfl
@[simp] theorem State.handAck_sbBase (p : PairId) (st : Status) (d t : Nat) : (s.handAck p st d t).sbBase = s.sbBase := by
  unfold State.handAck; split <;> rfl
@[simp] theorem State.handAck_irqMask (p : PairId) (st : Status) (d t : Nat) : (s.handAck p st d t).irqMask = s.irqMask := by
  unfold State.handAck; split <;> rfl
@[simp] theorem State.handAck_pins (p : PairId) (st : Status) (d t : Nat) : (s.handAck p st d t).pins = s.pins := by
  unfold State.handAck; split <;> rfl
@[simp] theorem State.handAck_axes (p : PairId) (st : Status) (d t : Nat) : (s.handAck p st d t).axes = s.axes := by
  unfold State.handAck; split <;> rfl
@[simp] theorem State.handAck_lists (p : PairId) (st : Status) (d t : Nat) : (s.handAck p st d t).lists = s.lists := by
  unfold State.handAck; split <;> rfl
@[simp] theorem State.handAck_pool (p : PairId) (st : Status) (d t : Nat) : (s.handAck p st d t).pool = s.pool := by
  unfold State.handAck; split <;> rfl
@[simp] theorem State.handAck_channels (p : PairId) (st : Status) (d t : Nat) : (s.handAck p st d t).channels = s.channels := by
  unfold State.handAck; split <;> rfl
@[simp] theorem State.handAck_lines (p : PairId) (st : Status) (d t : Nat) : (s.handAck p st d t).lines = s.lines := by
  unfold State.handAck; split <;> rfl
@[simp] theorem State.handAck_monitor (p : PairId) (st : Status) (d t : Nat) : (s.handAck p st d t).monitor = s.monitor := by
  unfold State.handAck; split <;> rfl
@[simp] theorem State.handAck_slots (p : PairId) (st : Status) (d t : Nat) : (s.handAck p st d t).slots = s.slots := by
  unfold State.handAck; split <;> rfl
@[simp] theorem State.handAck_pairs (p : PairId) (st : Status) (d t : Nat) : (s.handAck p st d t).pairs = s.pairs := by
  unfold State.handAck; split <;> rfl
@[simp] theorem State.handAck_nq (p : PairId) (st : Status) (d t : Nat) : (s.handAck p st d t).nq = s.nq := by
  unfold State.handAck; split <;> rfl
@[simp] theorem State.handAck_engine (p : PairId) (st : Status) (d t : Nat) : (s.handAck p st d t).engine = s.engine := by
  unfold State.handAck; split <;> rfl
@[simp] theorem State.handAck_lastServed (p : PairId) (st : Status) (d t : Nat) : (s.handAck p st d t).lastServed = s.lastServed := by
  unfold State.handAck; split <;> rfl
@[simp] theorem State.handAck_nqReq (p : PairId) (st : Status) (d t : Nat) : (s.handAck p st d t).nqReq = s.nqReq := by
  unfold State.handAck; split <;> rfl
@[simp] theorem State.handAck_writeQ (p : PairId) (st : Status) (d t : Nat) : (s.handAck p st d t).writeQ = s.writeQ := by
  unfold State.handAck; split <;> rfl
@[simp] theorem State.handAck_onBus (p : PairId) (st : Status) (d t : Nat) : (s.handAck p st d t).onBus = s.onBus := by
  unfold State.handAck; split <;> rfl
@[simp] theorem State.handAck_pending (p : PairId) (st : Status) (d t : Nat) : (s.handAck p st d t).pending = s.pending := by
  unfold State.handAck; split <;> rfl

/-! `setPhase` -/

@[simp] theorem State.setPhase_ts (p : PairId) (ph : Phase) : (s.setPhase p ph).ts = s.ts := by
  unfold State.setPhase; split <;> rfl
@[simp] theorem State.setPhase_resetting (p : PairId) (ph : Phase) : (s.setPhase p ph).resetting = s.resetting := by
  unfold State.setPhase; split <;> rfl
@[simp] theorem State.setPhase_resetCause (p : PairId) (ph : Phase) : (s.setPhase p ph).resetCause = s.resetCause := by
  unfold State.setPhase; split <;> rfl
@[simp] theorem State.setPhase_resetTick (p : PairId) (ph : Phase) : (s.setPhase p ph).resetTick = s.resetTick := by
  unfold State.setPhase; split <;> rfl
@[simp] theorem State.setPhase_enable (p : PairId) (ph : Phase) : (s.setPhase p ph).enable = s.enable := by
  unfold State.setPhase; split <;> rfl
@[simp] theorem State.setPhase_fault (p : PairId) (ph : Phase) : (s.setPhase p ph).fault = s.fault := by
  unfold State.setPhase; split <;> rfl
@[simp] theorem State.setPhase_sbBase (p : PairId) (ph : Phase) : (s.setPhase p ph).sbBase = s.sbBase := by
  unfold State.setPhase; split <;> rfl
@[simp] theorem State.setPhase_irqMask (p : PairId) (ph : Phase) : (s.setPhase p ph).irqMask = s.irqMask := by
  unfold State.setPhase; split <;> rfl
@[simp] theorem State.setPhase_pins (p : PairId) (ph : Phase) : (s.setPhase p ph).pins = s.pins := by
  unfold State.setPhase; split <;> rfl
@[simp] theorem State.setPhase_axes (p : PairId) (ph : Phase) : (s.setPhase p ph).axes = s.axes := by
  unfold State.setPhase; split <;> rfl
@[simp] theorem State.setPhase_lists (p : PairId) (ph : Phase) : (s.setPhase p ph).lists = s.lists := by
  unfold State.setPhase; split <;> rfl
@[simp] theorem State.setPhase_pool (p : PairId) (ph : Phase) : (s.setPhase p ph).pool = s.pool := by
  unfold State.setPhase; split <;> rfl
@[simp] theorem State.setPhase_channels (p : PairId) (ph : Phase) : (s.setPhase p ph).channels = s.channels := by
  unfold State.setPhase; split <;> rfl
@[simp] theorem State.setPhase_lines (p : PairId) (ph : Phase) : (s.setPhase p ph).lines = s.lines := by
  unfold State.setPhase; split <;> rfl
@[simp] theorem State.setPhase_monitor (p : PairId) (ph : Phase) : (s.setPhase p ph).monitor = s.monitor := by
  unfold State.setPhase; split <;> rfl
@[simp] theorem State.setPhase_slots (p : PairId) (ph : Phase) : (s.setPhase p ph).slots = s.slots := by
  unfold State.setPhase; split <;> rfl
@[simp] theorem State.setPhase_pairs (p : PairId) (ph : Phase) : (s.setPhase p ph).pairs = s.pairs := by
  unfold State.setPhase; split <;> rfl
@[simp] theorem State.setPhase_nq (p : PairId) (ph : Phase) : (s.setPhase p ph).nq = s.nq := by
  unfold State.setPhase; split <;> rfl
@[simp] theorem State.setPhase_engine (p : PairId) (ph : Phase) : (s.setPhase p ph).engine = s.engine := by
  unfold State.setPhase; split <;> rfl
@[simp] theorem State.setPhase_lastServed (p : PairId) (ph : Phase) : (s.setPhase p ph).lastServed = s.lastServed := by
  unfold State.setPhase; split <;> rfl
@[simp] theorem State.setPhase_cqReq (p : PairId) (ph : Phase) : (s.setPhase p ph).cqReq = s.cqReq := by
  unfold State.setPhase; split <;> rfl
@[simp] theorem State.setPhase_nqReq (p : PairId) (ph : Phase) : (s.setPhase p ph).nqReq = s.nqReq := by
  unfold State.setPhase; split <;> rfl
@[simp] theorem State.setPhase_writeQ (p : PairId) (ph : Phase) : (s.setPhase p ph).writeQ = s.writeQ := by
  unfold State.setPhase; split <;> rfl
@[simp] theorem State.setPhase_onBus (p : PairId) (ph : Phase) : (s.setPhase p ph).onBus = s.onBus := by
  unfold State.setPhase; split <;> rfl
@[simp] theorem State.setPhase_pending (p : PairId) (ph : Phase) : (s.setPhase p ph).pending = s.pending := by
  unfold State.setPhase; split <;> rfl

end Sys2Proof.Machine
end

