-- ==== Sys2Proof/Laws/Access.lean ====
section
/-! SUPPORT. What each operation makes of each block: the block it changes, and every other block left alone. -/

namespace Sys2Proof.Machine

variable (s : State)

/-! One block of a kind changes -/

@[simp] theorem State.updAxis_axis (i j : AxisId) (f : Axis → Axis) :
    (s.updAxis i f).axis j = if i = j then f (s.axis i) else s.axis j := by
  simp [State.updAxis, State.axis, Vector.getElem_set, Fin.ext_iff]

@[simp] theorem State.updList_clist (i j : AxisId) (f : CList → CList) :
    (s.updList i f).clist j = if i = j then f (s.clist i) else s.clist j := by
  simp [State.updList, State.clist, Vector.getElem_set, Fin.ext_iff]

@[simp] theorem State.updChan_chan (i j : ChanId) (f : Channel → Channel) :
    (s.updChan i f).chan j = if i = j then f (s.chan i) else s.chan j := by
  simp [State.updChan, State.chan, Vector.getElem_set, Fin.ext_iff]

@[simp] theorem State.updLine_line (i j : LineId) (f : Line → Line) :
    (s.updLine i f).line j = if i = j then f (s.line i) else s.line j := by
  simp [State.updLine, State.line, Vector.getElem_set, Fin.ext_iff]

@[simp] theorem State.updSlot_slot (i j : SlotId) (f : Slot → Slot) :
    (s.updSlot i f).slot j = if i = j then f (s.slot i) else s.slot j := by
  simp [State.updSlot, State.slot, Vector.getElem_set, Fin.ext_iff]

@[simp] theorem State.updPair_pair (i j : PairId) (f : Pair → Pair) :
    (s.updPair i f).pair j = if i = j then f (s.pair i) else s.pair j := by
  simp [State.updPair, State.pair, Vector.getElem_set, Fin.ext_iff]

@[simp] theorem State.setProc_proc (i j : PairId) (x : Proc) :
    (s.setProc i x).proc j = if i = j then x else s.proc j := by
  simp [State.setProc, State.proc, Vector.getElem_set, Fin.ext_iff]

@[simp] theorem State.setRequests_requests (i j : PairId) (l : List CqRequest) :
    (s.setRequests i l).requests j = if i = j then l else s.requests j := by
  simp [State.setRequests, State.requests, Vector.getElem_set, Fin.ext_iff]

/-! Every block of a kind changes -/

@[simp] theorem State.updAxes_axis (i : AxisId) (f : AxisId → Axis → Axis) : (s.updAxes f).axis i = f i (s.axis i) := by
  simp [State.updAxes, State.axis]

@[simp] theorem State.updLists_clist (i : AxisId) (f : AxisId → CList → CList) : (s.updLists f).clist i = f i (s.clist i) := by
  simp [State.updLists, State.clist]

@[simp] theorem State.updChans_chan (i : ChanId) (f : ChanId → Channel → Channel) : (s.updChans f).chan i = f i (s.chan i) := by
  simp [State.updChans, State.chan]

@[simp] theorem State.updLines_line (i : LineId) (f : LineId → Line → Line) : (s.updLines f).line i = f i (s.line i) := by
  simp [State.updLines, State.line]

@[simp] theorem State.updSlots_slot (i : SlotId) (f : SlotId → Slot → Slot) : (s.updSlots f).slot i = f i (s.slot i) := by
  simp [State.updSlots, State.slot]

@[simp] theorem State.updProcs_proc (i : PairId) (f : PairId → Proc → Proc) : (s.updProcs f).proc i = f i (s.proc i) := by
  simp [State.updProcs, State.proc]

/-! Blocks of another kind -/

@[simp] theorem State.updAxis_clist (a : AxisId) (f : Axis → Axis) (i : AxisId) : (s.updAxis a f).clist i = s.clist i := rfl
@[simp] theorem State.updAxis_chan (a : AxisId) (f : Axis → Axis) (i : ChanId) : (s.updAxis a f).chan i = s.chan i := rfl
@[simp] theorem State.updAxis_line (a : AxisId) (f : Axis → Axis) (i : LineId) : (s.updAxis a f).line i = s.line i := rfl
@[simp] theorem State.updAxis_slot (a : AxisId) (f : Axis → Axis) (i : SlotId) : (s.updAxis a f).slot i = s.slot i := rfl
@[simp] theorem State.updAxis_pair (a : AxisId) (f : Axis → Axis) (i : PairId) : (s.updAxis a f).pair i = s.pair i := rfl
@[simp] theorem State.updAxis_proc (a : AxisId) (f : Axis → Axis) (i : PairId) : (s.updAxis a f).proc i = s.proc i := rfl
@[simp] theorem State.updAxis_requests (a : AxisId) (f : Axis → Axis) (i : PairId) : (s.updAxis a f).requests i = s.requests i := rfl
@[simp] theorem State.updList_axis (a : AxisId) (f : CList → CList) (i : AxisId) : (s.updList a f).axis i = s.axis i := rfl
@[simp] theorem State.updList_chan (a : AxisId) (f : CList → CList) (i : ChanId) : (s.updList a f).chan i = s.chan i := rfl
@[simp] theorem State.updList_line (a : AxisId) (f : CList → CList) (i : LineId) : (s.updList a f).line i = s.line i := rfl
@[simp] theorem State.updList_slot (a : AxisId) (f : CList → CList) (i : SlotId) : (s.updList a f).slot i = s.slot i := rfl
@[simp] theorem State.updList_pair (a : AxisId) (f : CList → CList) (i : PairId) : (s.updList a f).pair i = s.pair i := rfl
@[simp] theorem State.updList_proc (a : AxisId) (f : CList → CList) (i : PairId) : (s.updList a f).proc i = s.proc i := rfl
@[simp] theorem State.updList_requests (a : AxisId) (f : CList → CList) (i : PairId) : (s.updList a f).requests i = s.requests i := rfl
@[simp] theorem State.updChan_axis (c : ChanId) (f : Channel → Channel) (i : AxisId) : (s.updChan c f).axis i = s.axis i := rfl
@[simp] theorem State.updChan_clist (c : ChanId) (f : Channel → Channel) (i : AxisId) : (s.updChan c f).clist i = s.clist i := rfl
@[simp] theorem State.updChan_line (c : ChanId) (f : Channel → Channel) (i : LineId) : (s.updChan c f).line i = s.line i := rfl
@[simp] theorem State.updChan_slot (c : ChanId) (f : Channel → Channel) (i : SlotId) : (s.updChan c f).slot i = s.slot i := rfl
@[simp] theorem State.updChan_pair (c : ChanId) (f : Channel → Channel) (i : PairId) : (s.updChan c f).pair i = s.pair i := rfl
@[simp] theorem State.updChan_proc (c : ChanId) (f : Channel → Channel) (i : PairId) : (s.updChan c f).proc i = s.proc i := rfl
@[simp] theorem State.updChan_requests (c : ChanId) (f : Channel → Channel) (i : PairId) : (s.updChan c f).requests i = s.requests i := rfl
@[simp] theorem State.updLine_axis (n : LineId) (f : Line → Line) (i : AxisId) : (s.updLine n f).axis i = s.axis i := rfl
@[simp] theorem State.updLine_clist (n : LineId) (f : Line → Line) (i : AxisId) : (s.updLine n f).clist i = s.clist i := rfl
@[simp] theorem State.updLine_chan (n : LineId) (f : Line → Line) (i : ChanId) : (s.updLine n f).chan i = s.chan i := rfl
@[simp] theorem State.updLine_slot (n : LineId) (f : Line → Line) (i : SlotId) : (s.updLine n f).slot i = s.slot i := rfl
@[simp] theorem State.updLine_pair (n : LineId) (f : Line → Line) (i : PairId) : (s.updLine n f).pair i = s.pair i := rfl
@[simp] theorem State.updLine_proc (n : LineId) (f : Line → Line) (i : PairId) : (s.updLine n f).proc i = s.proc i := rfl
@[simp] theorem State.updLine_requests (n : LineId) (f : Line → Line) (i : PairId) : (s.updLine n f).requests i = s.requests i := rfl
@[simp] theorem State.updSlot_axis (m : SlotId) (f : Slot → Slot) (i : AxisId) : (s.updSlot m f).axis i = s.axis i := rfl
@[simp] theorem State.updSlot_clist (m : SlotId) (f : Slot → Slot) (i : AxisId) : (s.updSlot m f).clist i = s.clist i := rfl
@[simp] theorem State.updSlot_chan (m : SlotId) (f : Slot → Slot) (i : ChanId) : (s.updSlot m f).chan i = s.chan i := rfl
@[simp] theorem State.updSlot_line (m : SlotId) (f : Slot → Slot) (i : LineId) : (s.updSlot m f).line i = s.line i := rfl
@[simp] theorem State.updSlot_pair (m : SlotId) (f : Slot → Slot) (i : PairId) : (s.updSlot m f).pair i = s.pair i := rfl
@[simp] theorem State.updSlot_proc (m : SlotId) (f : Slot → Slot) (i : PairId) : (s.updSlot m f).proc i = s.proc i := rfl
@[simp] theorem State.updSlot_requests (m : SlotId) (f : Slot → Slot) (i : PairId) : (s.updSlot m f).requests i = s.requests i := rfl
@[simp] theorem State.updPair_axis (p : PairId) (f : Pair → Pair) (i : AxisId) : (s.updPair p f).axis i = s.axis i := rfl
@[simp] theorem State.updPair_clist (p : PairId) (f : Pair → Pair) (i : AxisId) : (s.updPair p f).clist i = s.clist i := rfl
@[simp] theorem State.updPair_chan (p : PairId) (f : Pair → Pair) (i : ChanId) : (s.updPair p f).chan i = s.chan i := rfl
@[simp] theorem State.updPair_line (p : PairId) (f : Pair → Pair) (i : LineId) : (s.updPair p f).line i = s.line i := rfl
@[simp] theorem State.updPair_slot (p : PairId) (f : Pair → Pair) (i : SlotId) : (s.updPair p f).slot i = s.slot i := rfl
@[simp] theorem State.updPair_proc (p : PairId) (f : Pair → Pair) (i : PairId) : (s.updPair p f).proc i = s.proc i := rfl
@[simp] theorem State.updPair_requests (p : PairId) (f : Pair → Pair) (i : PairId) : (s.updPair p f).requests i = s.requests i := rfl
@[simp] theorem State.setProc_axis (p : PairId) (x : Proc) (i : AxisId) : (s.setProc p x).axis i = s.axis i := rfl
@[simp] theorem State.setProc_clist (p : PairId) (x : Proc) (i : AxisId) : (s.setProc p x).clist i = s.clist i := rfl
@[simp] theorem State.setProc_chan (p : PairId) (x : Proc) (i : ChanId) : (s.setProc p x).chan i = s.chan i := rfl
@[simp] theorem State.setProc_line (p : PairId) (x : Proc) (i : LineId) : (s.setProc p x).line i = s.line i := rfl
@[simp] theorem State.setProc_slot (p : PairId) (x : Proc) (i : SlotId) : (s.setProc p x).slot i = s.slot i := rfl
@[simp] theorem State.setProc_pair (p : PairId) (x : Proc) (i : PairId) : (s.setProc p x).pair i = s.pair i := rfl
@[simp] theorem State.setProc_requests (p : PairId) (x : Proc) (i : PairId) : (s.setProc p x).requests i = s.requests i := rfl
@[simp] theorem State.setRequests_axis (p : PairId) (l : List CqRequest) (i : AxisId) : (s.setRequests p l).axis i = s.axis i := rfl
@[simp] theorem State.setRequests_clist (p : PairId) (l : List CqRequest) (i : AxisId) : (s.setRequests p l).clist i = s.clist i := rfl
@[simp] theorem State.setRequests_chan (p : PairId) (l : List CqRequest) (i : ChanId) : (s.setRequests p l).chan i = s.chan i := rfl
@[simp] theorem State.setRequests_line (p : PairId) (l : List CqRequest) (i : LineId) : (s.setRequests p l).line i = s.line i := rfl
@[simp] theorem State.setRequests_slot (p : PairId) (l : List CqRequest) (i : SlotId) : (s.setRequests p l).slot i = s.slot i := rfl
@[simp] theorem State.setRequests_pair (p : PairId) (l : List CqRequest) (i : PairId) : (s.setRequests p l).pair i = s.pair i := rfl
@[simp] theorem State.setRequests_proc (p : PairId) (l : List CqRequest) (i : PairId) : (s.setRequests p l).proc i = s.proc i := rfl
@[simp] theorem State.updAxes_clist (f : AxisId → Axis → Axis) (i : AxisId) : (s.updAxes f).clist i = s.clist i := by simp [State.clist]
@[simp] theorem State.updAxes_chan (f : AxisId → Axis → Axis) (i : ChanId) : (s.updAxes f).chan i = s.chan i := by simp [State.chan]
@[simp] theorem State.updAxes_line (f : AxisId → Axis → Axis) (i : LineId) : (s.updAxes f).line i = s.line i := by simp [State.line]
@[simp] theorem State.updAxes_slot (f : AxisId → Axis → Axis) (i : SlotId) : (s.updAxes f).slot i = s.slot i := by simp [State.slot]
@[simp] theorem State.updAxes_pair (f : AxisId → Axis → Axis) (i : PairId) : (s.updAxes f).pair i = s.pair i := by simp [State.pair]
@[simp] theorem State.updAxes_proc (f : AxisId → Axis → Axis) (i : PairId) : (s.updAxes f).proc i = s.proc i := by simp [State.proc]
@[simp] theorem State.updAxes_requests (f : AxisId → Axis → Axis) (i : PairId) : (s.updAxes f).requests i = s.requests i := by simp [State.requests]
@[simp] theorem State.updLists_axis (f : AxisId → CList → CList) (i : AxisId) : (s.updLists f).axis i = s.axis i := by simp [State.axis]
@[simp] theorem State.updLists_chan (f : AxisId → CList → CList) (i : ChanId) : (s.updLists f).chan i = s.chan i := by simp [State.chan]
@[simp] theorem State.updLists_line (f : AxisId → CList → CList) (i : LineId) : (s.updLists f).line i = s.line i := by simp [State.line]
@[simp] theorem State.updLists_slot (f : AxisId → CList → CList) (i : SlotId) : (s.updLists f).slot i = s.slot i := by simp [State.slot]
@[simp] theorem State.updLists_pair (f : AxisId → CList → CList) (i : PairId) : (s.updLists f).pair i = s.pair i := by simp [State.pair]
@[simp] theorem State.updLists_proc (f : AxisId → CList → CList) (i : PairId) : (s.updLists f).proc i = s.proc i := by simp [State.proc]
@[simp] theorem State.updLists_requests (f : AxisId → CList → CList) (i : PairId) : (s.updLists f).requests i = s.requests i := by simp [State.requests]
@[simp] theorem State.updChans_axis (f : ChanId → Channel → Channel) (i : AxisId) : (s.updChans f).axis i = s.axis i := by simp [State.axis]
@[simp] theorem State.updChans_clist (f : ChanId → Channel → Channel) (i : AxisId) : (s.updChans f).clist i = s.clist i := by simp [State.clist]
@[simp] theorem State.updChans_line (f : ChanId → Channel → Channel) (i : LineId) : (s.updChans f).line i = s.line i := by simp [State.line]
@[simp] theorem State.updChans_slot (f : ChanId → Channel → Channel) (i : SlotId) : (s.updChans f).slot i = s.slot i := by simp [State.slot]
@[simp] theorem State.updChans_pair (f : ChanId → Channel → Channel) (i : PairId) : (s.updChans f).pair i = s.pair i := by simp [State.pair]
@[simp] theorem State.updChans_proc (f : ChanId → Channel → Channel) (i : PairId) : (s.updChans f).proc i = s.proc i := by simp [State.proc]
@[simp] theorem State.updChans_requests (f : ChanId → Channel → Channel) (i : PairId) : (s.updChans f).requests i = s.requests i := by simp [State.requests]
@[simp] theorem State.updLines_axis (f : LineId → Line → Line) (i : AxisId) : (s.updLines f).axis i = s.axis i := by simp [State.axis]
@[simp] theorem State.updLines_clist (f : LineId → Line → Line) (i : AxisId) : (s.updLines f).clist i = s.clist i := by simp [State.clist]
@[simp] theorem State.updLines_chan (f : LineId → Line → Line) (i : ChanId) : (s.updLines f).chan i = s.chan i := by simp [State.chan]
@[simp] theorem State.updLines_slot (f : LineId → Line → Line) (i : SlotId) : (s.updLines f).slot i = s.slot i := by simp [State.slot]
@[simp] theorem State.updLines_pair (f : LineId → Line → Line) (i : PairId) : (s.updLines f).pair i = s.pair i := by simp [State.pair]
@[simp] theorem State.updLines_proc (f : LineId → Line → Line) (i : PairId) : (s.updLines f).proc i = s.proc i := by simp [State.proc]
@[simp] theorem State.updLines_requests (f : LineId → Line → Line) (i : PairId) : (s.updLines f).requests i = s.requests i := by simp [State.requests]
@[simp] theorem State.updSlots_axis (f : SlotId → Slot → Slot) (i : AxisId) : (s.updSlots f).axis i = s.axis i := by simp [State.axis]
@[simp] theorem State.updSlots_clist (f : SlotId → Slot → Slot) (i : AxisId) : (s.updSlots f).clist i = s.clist i := by simp [State.clist]
@[simp] theorem State.updSlots_chan (f : SlotId → Slot → Slot) (i : ChanId) : (s.updSlots f).chan i = s.chan i := by simp [State.chan]
@[simp] theorem State.updSlots_line (f : SlotId → Slot → Slot) (i : LineId) : (s.updSlots f).line i = s.line i := by simp [State.line]
@[simp] theorem State.updSlots_pair (f : SlotId → Slot → Slot) (i : PairId) : (s.updSlots f).pair i = s.pair i := by simp [State.pair]
@[simp] theorem State.updSlots_proc (f : SlotId → Slot → Slot) (i : PairId) : (s.updSlots f).proc i = s.proc i := by simp [State.proc]
@[simp] theorem State.updSlots_requests (f : SlotId → Slot → Slot) (i : PairId) : (s.updSlots f).requests i = s.requests i := by simp [State.requests]
@[simp] theorem State.updProcs_axis (f : PairId → Proc → Proc) (i : AxisId) : (s.updProcs f).axis i = s.axis i := by simp [State.axis]
@[simp] theorem State.updProcs_clist (f : PairId → Proc → Proc) (i : AxisId) : (s.updProcs f).clist i = s.clist i := by simp [State.clist]
@[simp] theorem State.updProcs_chan (f : PairId → Proc → Proc) (i : ChanId) : (s.updProcs f).chan i = s.chan i := by simp [State.chan]
@[simp] theorem State.updProcs_line (f : PairId → Proc → Proc) (i : LineId) : (s.updProcs f).line i = s.line i := by simp [State.line]
@[simp] theorem State.updProcs_slot (f : PairId → Proc → Proc) (i : SlotId) : (s.updProcs f).slot i = s.slot i := by simp [State.slot]
@[simp] theorem State.updProcs_pair (f : PairId → Proc → Proc) (i : PairId) : (s.updProcs f).pair i = s.pair i := by simp [State.pair]
@[simp] theorem State.updProcs_requests (f : PairId → Proc → Proc) (i : PairId) : (s.updProcs f).requests i = s.requests i := by simp [State.requests]
@[simp] theorem State.tellList_axis (a : AxisId) (m : ListMsg) (i : AxisId) : (s.tellList a m).axis i = s.axis i := rfl
@[simp] theorem State.tellList_chan (a : AxisId) (m : ListMsg) (i : ChanId) : (s.tellList a m).chan i = s.chan i := rfl
@[simp] theorem State.tellList_line (a : AxisId) (m : ListMsg) (i : LineId) : (s.tellList a m).line i = s.line i := rfl
@[simp] theorem State.tellList_slot (a : AxisId) (m : ListMsg) (i : SlotId) : (s.tellList a m).slot i = s.slot i := rfl
@[simp] theorem State.tellList_pair (a : AxisId) (m : ListMsg) (i : PairId) : (s.tellList a m).pair i = s.pair i := rfl
@[simp] theorem State.tellList_proc (a : AxisId) (m : ListMsg) (i : PairId) : (s.tellList a m).proc i = s.proc i := rfl
@[simp] theorem State.tellList_requests (a : AxisId) (m : ListMsg) (i : PairId) : (s.tellList a m).requests i = s.requests i := rfl
@[simp] theorem State.tellLines_axis (a : AxisId) (m : LineMsg) (i : AxisId) : (s.tellLines a m).axis i = s.axis i := by simp [State.axis]
@[simp] theorem State.tellLines_clist (a : AxisId) (m : LineMsg) (i : AxisId) : (s.tellLines a m).clist i = s.clist i := by simp [State.clist]
@[simp] theorem State.tellLines_chan (a : AxisId) (m : LineMsg) (i : ChanId) : (s.tellLines a m).chan i = s.chan i := by simp [State.chan]
@[simp] theorem State.tellLines_slot (a : AxisId) (m : LineMsg) (i : SlotId) : (s.tellLines a m).slot i = s.slot i := by simp [State.slot]
@[simp] theorem State.tellLines_pair (a : AxisId) (m : LineMsg) (i : PairId) : (s.tellLines a m).pair i = s.pair i := by simp [State.pair]
@[simp] theorem State.tellLines_proc (a : AxisId) (m : LineMsg) (i : PairId) : (s.tellLines a m).proc i = s.proc i := by simp [State.proc]
@[simp] theorem State.tellLines_requests (a : AxisId) (m : LineMsg) (i : PairId) : (s.tellLines a m).requests i = s.requests i := by simp [State.requests]
@[simp] theorem State.tellChans_axis (a : AxisId) (m : ChanMsg) (i : AxisId) : (s.tellChans a m).axis i = s.axis i := by simp [State.axis]
@[simp] theorem State.tellChans_clist (a : AxisId) (m : ChanMsg) (i : AxisId) : (s.tellChans a m).clist i = s.clist i := by simp [State.clist]
@[simp] theorem State.tellChans_line (a : AxisId) (m : ChanMsg) (i : LineId) : (s.tellChans a m).line i = s.line i := by simp [State.line]
@[simp] theorem State.tellChans_slot (a : AxisId) (m : ChanMsg) (i : SlotId) : (s.tellChans a m).slot i = s.slot i := by simp [State.slot]
@[simp] theorem State.tellChans_pair (a : AxisId) (m : ChanMsg) (i : PairId) : (s.tellChans a m).pair i = s.pair i := by simp [State.pair]
@[simp] theorem State.tellChans_proc (a : AxisId) (m : ChanMsg) (i : PairId) : (s.tellChans a m).proc i = s.proc i := by simp [State.proc]
@[simp] theorem State.tellChans_requests (a : AxisId) (m : ChanMsg) (i : PairId) : (s.tellChans a m).requests i = s.requests i := by simp [State.requests]
@[simp] theorem State.sendAction_axis (n : LineId) (f : FireAction) (i : AxisId) : (s.sendAction n f).axis i = s.axis i := rfl
@[simp] theorem State.sendAction_clist (n : LineId) (f : FireAction) (i : AxisId) : (s.sendAction n f).clist i = s.clist i := rfl
@[simp] theorem State.sendAction_chan (n : LineId) (f : FireAction) (i : ChanId) : (s.sendAction n f).chan i = s.chan i := rfl
@[simp] theorem State.sendAction_slot (n : LineId) (f : FireAction) (i : SlotId) : (s.sendAction n f).slot i = s.slot i := rfl
@[simp] theorem State.sendAction_pair (n : LineId) (f : FireAction) (i : PairId) : (s.sendAction n f).pair i = s.pair i := rfl
@[simp] theorem State.sendAction_proc (n : LineId) (f : FireAction) (i : PairId) : (s.sendAction n f).proc i = s.proc i := rfl
@[simp] theorem State.sendAction_requests (n : LineId) (f : FireAction) (i : PairId) : (s.sendAction n f).requests i = s.requests i := rfl
@[simp] theorem State.tellTrip_axis (n : LineId) (m : TripMsg) (i : AxisId) : (s.tellTrip n m).axis i = s.axis i := rfl
@[simp] theorem State.tellTrip_clist (n : LineId) (m : TripMsg) (i : AxisId) : (s.tellTrip n m).clist i = s.clist i := rfl
@[simp] theorem State.tellTrip_chan (n : LineId) (m : TripMsg) (i : ChanId) : (s.tellTrip n m).chan i = s.chan i := rfl
@[simp] theorem State.tellTrip_slot (n : LineId) (m : TripMsg) (i : SlotId) : (s.tellTrip n m).slot i = s.slot i := rfl
@[simp] theorem State.tellTrip_pair (n : LineId) (m : TripMsg) (i : PairId) : (s.tellTrip n m).pair i = s.pair i := rfl
@[simp] theorem State.tellTrip_proc (n : LineId) (m : TripMsg) (i : PairId) : (s.tellTrip n m).proc i = s.proc i := rfl
@[simp] theorem State.tellTrip_requests (n : LineId) (m : TripMsg) (i : PairId) : (s.tellTrip n m).requests i = s.requests i := rfl
@[simp] theorem State.sendHold_clist (a : AxisId) (c : Cause) (i : AxisId) : (s.sendHold a c).clist i = s.clist i := rfl
@[simp] theorem State.sendHold_chan (a : AxisId) (c : Cause) (i : ChanId) : (s.sendHold a c).chan i = s.chan i := rfl
@[simp] theorem State.sendHold_line (a : AxisId) (c : Cause) (i : LineId) : (s.sendHold a c).line i = s.line i := rfl
@[simp] theorem State.sendHold_slot (a : AxisId) (c : Cause) (i : SlotId) : (s.sendHold a c).slot i = s.slot i := rfl
@[simp] theorem State.sendHold_pair (a : AxisId) (c : Cause) (i : PairId) : (s.sendHold a c).pair i = s.pair i := rfl
@[simp] theorem State.sendHold_proc (a : AxisId) (c : Cause) (i : PairId) : (s.sendHold a c).proc i = s.proc i := rfl
@[simp] theorem State.sendHold_requests (a : AxisId) (c : Cause) (i : PairId) : (s.sendHold a c).requests i = s.requests i := rfl
@[simp] theorem State.handNotice_axis (n : Notice) (i : AxisId) : (s.handNotice n).axis i = s.axis i := rfl
@[simp] theorem State.handNotice_clist (n : Notice) (i : AxisId) : (s.handNotice n).clist i = s.clist i := rfl
@[simp] theorem State.handNotice_chan (n : Notice) (i : ChanId) : (s.handNotice n).chan i = s.chan i := rfl
@[simp] theorem State.handNotice_line (n : Notice) (i : LineId) : (s.handNotice n).line i = s.line i := rfl
@[simp] theorem State.handNotice_slot (n : Notice) (i : SlotId) : (s.handNotice n).slot i = s.slot i := rfl
@[simp] theorem State.handNotice_pair (n : Notice) (i : PairId) : (s.handNotice n).pair i = s.pair i := rfl
@[simp] theorem State.handNotice_proc (n : Notice) (i : PairId) : (s.handNotice n).proc i = s.proc i := rfl
@[simp] theorem State.handNotice_requests (n : Notice) (i : PairId) : (s.handNotice n).requests i = s.requests i := rfl
@[simp] theorem State.handReport_axis (p : PairId) (q : CqRequest) (i : AxisId) : (s.handReport p q).axis i = s.axis i := rfl
@[simp] theorem State.handReport_clist (p : PairId) (q : CqRequest) (i : AxisId) : (s.handReport p q).clist i = s.clist i := rfl
@[simp] theorem State.handReport_chan (p : PairId) (q : CqRequest) (i : ChanId) : (s.handReport p q).chan i = s.chan i := rfl
@[simp] theorem State.handReport_line (p : PairId) (q : CqRequest) (i : LineId) : (s.handReport p q).line i = s.line i := rfl
@[simp] theorem State.handReport_slot (p : PairId) (q : CqRequest) (i : SlotId) : (s.handReport p q).slot i = s.slot i := rfl
@[simp] theorem State.handReport_pair (p : PairId) (q : CqRequest) (i : PairId) : (s.handReport p q).pair i = s.pair i := rfl
@[simp] theorem State.handReport_proc (p : PairId) (q : CqRequest) (i : PairId) : (s.handReport p q).proc i = s.proc i := rfl
@[simp] theorem State.startRecord_axis (p : PairId) (r : Record) (i : AxisId) : (s.startRecord p r).axis i = s.axis i := rfl
@[simp] theorem State.startRecord_clist (p : PairId) (r : Record) (i : AxisId) : (s.startRecord p r).clist i = s.clist i := rfl
@[simp] theorem State.startRecord_chan (p : PairId) (r : Record) (i : ChanId) : (s.startRecord p r).chan i = s.chan i := rfl
@[simp] theorem State.startRecord_line (p : PairId) (r : Record) (i : LineId) : (s.startRecord p r).line i = s.line i := rfl
@[simp] theorem State.startRecord_slot (p : PairId) (r : Record) (i : SlotId) : (s.startRecord p r).slot i = s.slot i := rfl
@[simp] theorem State.startRecord_requests (p : PairId) (r : Record) (i : PairId) : (s.startRecord p r).requests i = s.requests i := rfl
@[simp] theorem State.release_axis (e : Entry) (i : AxisId) : (s.release e).axis i = s.axis i := by simp [State.axis]
@[simp] theorem State.release_clist (e : Entry) (i : AxisId) : (s.release e).clist i = s.clist i := by simp [State.clist]
@[simp] theorem State.release_chan (e : Entry) (i : ChanId) : (s.release e).chan i = s.chan i := by simp [State.chan]
@[simp] theorem State.release_slot (e : Entry) (i : SlotId) : (s.release e).slot i = s.slot i := by simp [State.slot]
@[simp] theorem State.release_pair (e : Entry) (i : PairId) : (s.release e).pair i = s.pair i := by simp [State.pair]
@[simp] theorem State.release_requests (e : Entry) (i : PairId) : (s.release e).requests i = s.requests i := by simp [State.requests]
@[simp] theorem State.retire_axis (e : Entry) (i : AxisId) : (s.retire e).axis i = s.axis i := by simp [State.axis]
@[simp] theorem State.retire_clist (e : Entry) (i : AxisId) : (s.retire e).clist i = s.clist i := by simp [State.clist]
@[simp] theorem State.retire_chan (e : Entry) (i : ChanId) : (s.retire e).chan i = s.chan i := by simp [State.chan]
@[simp] theorem State.retire_slot (e : Entry) (i : SlotId) : (s.retire e).slot i = s.slot i := by simp [State.slot]
@[simp] theorem State.retire_pair (e : Entry) (i : PairId) : (s.retire e).pair i = s.pair i := by simp [State.pair]
@[simp] theorem State.retire_requests (e : Entry) (i : PairId) : (s.retire e).requests i = s.requests i := by simp [State.requests]
@[simp] theorem State.handAck_axis (p : PairId) (st : Status) (d t : Nat) (i : AxisId) : (s.handAck p st d t).axis i = s.axis i := by
  unfold State.handAck; split <;> rfl
@[simp] theorem State.handAck_clist (p : PairId) (st : Status) (d t : Nat) (i : AxisId) : (s.handAck p st d t).clist i = s.clist i := by
  unfold State.handAck; split <;> rfl
@[simp] theorem State.handAck_chan (p : PairId) (st : Status) (d t : Nat) (i : ChanId) : (s.handAck p st d t).chan i = s.chan i := by
  unfold State.handAck; split <;> rfl
@[simp] theorem State.handAck_line (p : PairId) (st : Status) (d t : Nat) (i : LineId) : (s.handAck p st d t).line i = s.line i := by
  unfold State.handAck; split <;> rfl
@[simp] theorem State.handAck_slot (p : PairId) (st : Status) (d t : Nat) (i : SlotId) : (s.handAck p st d t).slot i = s.slot i := by
  unfold State.handAck; split <;> rfl
@[simp] theorem State.handAck_pair (p : PairId) (st : Status) (d t : Nat) (i : PairId) : (s.handAck p st d t).pair i = s.pair i := by
  unfold State.handAck; split <;> rfl
@[simp] theorem State.setPhase_axis (p : PairId) (ph : Phase) (i : AxisId) : (s.setPhase p ph).axis i = s.axis i := by
  unfold State.setPhase; split <;> rfl
@[simp] theorem State.setPhase_clist (p : PairId) (ph : Phase) (i : AxisId) : (s.setPhase p ph).clist i = s.clist i := by
  unfold State.setPhase; split <;> rfl
@[simp] theorem State.setPhase_chan (p : PairId) (ph : Phase) (i : ChanId) : (s.setPhase p ph).chan i = s.chan i := by
  unfold State.setPhase; split <;> rfl
@[simp] theorem State.setPhase_line (p : PairId) (ph : Phase) (i : LineId) : (s.setPhase p ph).line i = s.line i := by
  unfold State.setPhase; split <;> rfl
@[simp] theorem State.setPhase_slot (p : PairId) (ph : Phase) (i : SlotId) : (s.setPhase p ph).slot i = s.slot i := by
  unfold State.setPhase; split <;> rfl
@[simp] theorem State.setPhase_pair (p : PairId) (ph : Phase) (i : PairId) : (s.setPhase p ph).pair i = s.pair i := by
  unfold State.setPhase; split <;> rfl
@[simp] theorem State.setPhase_requests (p : PairId) (ph : Phase) (i : PairId) : (s.setPhase p ph).requests i = s.requests i := by
  unfold State.setPhase; split <;> rfl

end Sys2Proof.Machine
end

