-- ==== Sys2Proof/Laws/Layouts.lean ====
section
/-! SUPPORT. What the bytes of a record show, field by field, as they are joined (R189, R194, R197). -/

namespace Sys2Proof.Machine

/-! ## One field -/

/-- A field of `n` bytes is `n` bytes long. -/
@[simp] theorem le_length (n v : Nat) : (le n v).length = n := by
  induction n generalizing v with
  | zero => rfl
  | succ n ih => simp [le, ih]

/-- A signed field of `n` bytes is `n` bytes long. -/
@[simp] theorem leInt_length (n : Nat) (v : Int) : (leInt n v).length = n := le_length n _

/-- A field of value 0 is zeros. -/
@[simp] theorem le_zero (n : Nat) : le n 0 = zeros n := by
  induction n with
  | zero => rfl
  | succ n ih => simpa [le, zeros, List.replicate_succ] using ih

/-- A signed field of value 0 is zeros. -/
@[simp] theorem leInt_zero (n : Nat) : leInt n 0 = zeros n := by simp [leInt]

/-- A byte is a field of one byte. -/
theorem byte_eq_le (b : Byte) : [b] = le 1 b.toNat := by simp [le]

/-- The bytes of a value tell it, up to the width of the field. -/
theorem field_le (n v : Nat) : field (le n v) 0 n = v % 2 ^ (8 * n) := by
  induction n generalizing v with
  | zero => simp [field, le, Nat.mod_one]
  | succ n ih =>
    have h : field (le (n + 1) v) 0 (n + 1) = v % 2 ^ 8 + 2 ^ 8 * field (le n (v / 2 ^ 8)) 0 n := by
      simp [field, le]
    rw [h, ih, show 8 * (n + 1) = 8 + 8 * n by omega, Nat.pow_add, Nat.mod_mul]

/-- Bytes before those of a field change nothing in it. -/
theorem field_append_right (a b : List Byte) (n : Nat) : field (a ++ b) a.length n = field b 0 n := by
  simp [field]

/-- Bytes after those of a field change nothing in it. -/
theorem field_append_left (a b : List Byte) (offset n : Nat) (h : offset + n ≤ a.length) :
    field (a ++ b) offset n = field a offset n := by
  simp [field, List.drop_append_of_le_length (show offset ≤ a.length by omega),
    List.take_append_of_le_length (show n ≤ (a.drop offset).length by rw [List.length_drop]; omega)]

/-! ## Records, joined from their fields -/

/-- No bytes show no field. -/
theorem Shows.empty : Shows [] 0 [] := ⟨rfl, by simp, by simp⟩

/-- What is shown does not depend on the order in which the fields are listed. -/
theorem Shows.perm {d : List Byte} {l : Nat} {fs gs : Layout} (h : Shows d l fs) (p : ∀ f, f ∈ fs ↔ f ∈ gs) : Shows d l gs :=
  ⟨h.1, fun f hf => h.2.1 f ((p f).2 hf), fun i hi hg => h.2.2 i hi fun f hf => hg f ((p f).1 hf)⟩

/-- Bytes joined at the end show one field more, if they are its bytes. -/
theorem Shows.append {d b : List Byte} {l n : Nat} {fs : Layout} (v : Int) (h : Shows d l fs) (hb : b.length = n)
    (hv : (field b 0 n : Int) = v % 2 ^ (8 * n)) : Shows (d ++ b) (l + n) (fs ++ [(l, n, v)]) := by
  obtain ⟨hl, hf, hz⟩ := h
  refine ⟨by simp [hl, hb], fun f m => ?_, fun i hi hn => ?_⟩
  · rcases List.mem_append.1 m with m | m
    · exact ⟨by have := (hf f m).1; omega, by rw [field_append_left _ _ _ _ (by have := (hf f m).1; omega)]; exact (hf f m).2⟩
    · rw [List.mem_singleton] at m
      subst m
      refine ⟨Nat.le_refl _, ?_⟩
      subst hl
      rw [field_append_right]
      exact hv
  · have out := hn (l, n, v) (by simp)
    have il : i < l := by
      dsimp only at out
      omega
    rw [List.getElem?_append_left (by omega)]
    exact hz i il fun f m => hn f (List.mem_append_left _ m)

/-- An unsigned field joined at the end. -/
theorem Shows.le {d : List Byte} {l : Nat} {fs : Layout} (h : Shows d l fs) (n v : Nat) :
    Shows (d ++ Machine.le n v) (l + n) (fs ++ [(l, n, (v : Int))]) :=
  h.append v (le_length n v) (by rw [field_le]; simp)

/-- A signed field joined at the end. -/
theorem Shows.leInt {d : List Byte} {l : Nat} {fs : Layout} (h : Shows d l fs) (n : Nat) (v : Int) :
    Shows (d ++ Machine.leInt n v) (l + n) (fs ++ [(l, n, v)]) :=
  h.append v (leInt_length n v) (by
    have pos : (0 : Int) < 2 ^ (8 * n) := by positivity
    rw [Machine.leInt, field_le]
    simp [Int.toNat_of_nonneg (Int.emod_nonneg v pos.ne')])

/-- Reserved bytes joined at the end. -/
theorem Shows.zeros {d : List Byte} {l : Nat} {fs : Layout} (h : Shows d l fs) (n : Nat) : Shows (d ++ Machine.zeros n) (l + n) fs := by
  obtain ⟨hl, hf, hz⟩ := h
  refine ⟨by simp [hl, Machine.zeros], fun f m => ?_, fun i hi hn => ?_⟩
  · exact ⟨by have := (hf f m).1; omega, by rw [field_append_left _ _ _ _ (by have := (hf f m).1; omega)]; exact (hf f m).2⟩
  · by_cases il : i < l
    · rw [List.getElem?_append_left (by omega)]
      exact hz i il hn
    · rw [List.getElem?_append_right (by omega), Machine.zeros, List.getElem?_replicate, if_pos (by omega)]

end Sys2Proof.Machine
end

