-- ==== Sys2Proof/Laws/Ops.lean ====
section
/-! SUPPORT. One lemma for each shared operation, saying everything it can do. -/

namespace Sys2Proof.Machine

/-! ## The course and the end of a record -/

/-- A record in progress hands its ack. -/
theorem State.handAck_busy (s : State) (p : PairId) (k : Byte) (c : W32) (ph : Phase) (st : Status) (d t : Nat)
    (h : s.proc p = .busy k c ph) : s.handAck p st d t = s.withAck p k c st d t := by
  unfold State.handAck
  rw [h]
  rfl

/-- An idle processor hands no ack. -/
theorem State.handAck_idle (s : State) (p : PairId) (st : Status) (d t : Nat) (h : s.proc p = .idle) :
    s.handAck p st d t = s := by
  unfold State.handAck
  rw [h]

/-- A record in progress goes to a phase. -/
theorem State.setPhase_busy (s : State) (p : PairId) (k : Byte) (c : W32) (ph ph' : Phase) (h : s.proc p = .busy k c ph) :
    s.setPhase p ph' = { s with procs := s.procs.set p (.busy k c ph') } := by
  unfold State.setPhase
  rw [h]
  rfl

/-- An idle processor goes to no phase. -/
theorem State.setPhase_idle (s : State) (p : PairId) (ph : Phase) (h : s.proc p = .idle) : s.setPhase p ph = s := by
  unfold State.setPhase
  rw [h]

/-- The record that has answered the read is in progress at its pair, and no other processor has changed. -/
@[simp] theorem State.startRecord_proc (s : State) (p q : PairId) (r : Record) :
    (s.startRecord p r).proc q = if p = q then .busy (r.byte 0) r.cookie .acked else s.proc q := by
  unfold State.startRecord
  exact State.setProc_proc _ p q _

/-- The pair of the record has a new SQ head, and no pair has changed otherwise. -/
@[simp] theorem State.startRecord_pair (s : State) (p q : PairId) (r : Record) :
    (s.startRecord p r).pair q = if p = q then { s.pair p with sqHead := s.nextHead p } else s.pair q := by
  unfold State.startRecord
  exact State.updPair_pair s p q fun x => { x with sqHead := s.nextHead p }

/-- The engine is free after the read is answered. -/
@[simp] theorem State.startRecord_engine (s : State) (p : PairId) (r : Record) : (s.startRecord p r).engine = none := rfl

/-- A status block write of the new SQ head is queued. -/
@[simp] theorem State.startRecord_writeQ (s : State) (p : PairId) (r : Record) :
    (s.startRecord p r).writeQ = s.writeQ ++ [.head p (s.nextHead p)] := rfl

/-- A record that answers the read and goes to a phase. -/
theorem State.startRecord_setPhase (s : State) (p : PairId) (r : Record) (ph : Phase) :
    (s.startRecord p r).setPhase p ph = s.recordTaken p r ph := by
  rw [State.setPhase_busy _ p (r.byte 0) r.cookie .acked ph (by simp)]
  simp [State.startRecord, State.recordTaken, State.setProc, State.updPair, State.nextHead]

/-- A record that answers the read and hands its ack at once. -/
theorem State.startRecord_handAck (s : State) (p : PairId) (r : Record) (st : Status) (d t : Nat) :
    (s.startRecord p r).handAck p st d t = s.recordAnswered p r st d t := by
  rw [State.handAck_busy _ p (r.byte 0) r.cookie .acked st d t (by simp)]
  simp [State.startRecord, State.recordAnswered, State.recordTaken, State.withAck, State.setProc, State.updPair, State.nextHead,
    State.requests]

/-- A record that passes steps 1 to 3 goes on. -/
theorem State.onRecord_takes (s : State) (r : Record) (k : Kind) (p : PairId) (f : PairId → State → State) (h : s.Takes r k p) :
    s.onRecord r k f = f p (s.startRecord p r) := by
  unfold State.onRecord
  rw [h.1]
  simp [h.2]

/-- A record that fails step 2 or 3 is answered BAD_FIELD. -/
theorem State.onRecord_badField (s : State) (r : Record) (k : Kind) (p : PairId) (ix : Nat) (f : PairId → State → State)
    (h : s.fetchedFor r k = some p) (b : badField k r = some ix) : s.onRecord r k f = s.recordAnswered p r .badField ix s.ts := by
  unfold State.onRecord
  rw [h]
  simp [b, State.startRecord_handAck]

/-- A record that answers no read changes nothing. -/
theorem State.onRecord_none (s : State) (r : Record) (k : Kind) (f : PairId → State → State) (h : s.fetchedFor r k = none) :
    s.onRecord r k f = s := by
  unfold State.onRecord
  rw [h]

/-! ## The release of an entry -/

/-- A release adds one to the free set, and takes one from the live count of the entry's pair and from no other (R45). -/
theorem State.release_pool (s : State) (e : Entry) :
    (s.release e).pool = ⟨s.pool.free + 1, s.pool.quota, s.pool.live.set e.owner (s.pool.live[e.owner] - 1)⟩ := rfl

/-- A release takes one from the reference count of the entry's line and changes no line otherwise (R45). -/
theorem State.release_line (s : State) (e : Entry) (n : LineId) :
    (s.release e).line n = if e.line = n then { s.line n with refCount := (s.line n).refCount - 1 } else s.line n := by
  have h : (s.release e).line n =
      ((s.updLine e.line fun l => { l with refCount := l.refCount - 1 }).line n) := rfl
  rw [h, State.updLine_line]
  split
  · next h => subst h; rfl
  · rfl

/-! ## Fire actions and the retirement of an entry at a list -/

/-- An action changes a line's state, its suppressed count and its tick, and nothing else of it (R108, R109). -/
theorem Line.act_frame (l : Line) (f : FireAction) :
    l.act f = { l with state := (l.act f).state, suppressed := (l.act f).suppressed, tick := (l.act f).tick } := by
  unfold Line.act
  split
  · rfl
  · rfl
  · cases f.action <;> rfl
  · cases f.action <;> rfl
  · cases f.action with
    | pulse d u => dsimp only; cases l.retrigger <;> rfl
    | _ => rfl

/-- Taking several actions changes a line's state, its suppressed count and its tick, and nothing else of it. -/
theorem Line.act_foldl_frame (fs : List FireAction) (l : Line) :
    fs.foldl Line.act l = { l with
      state := (fs.foldl Line.act l).state, suppressed := (fs.foldl Line.act l).suppressed, tick := (fs.foldl Line.act l).tick } := by
  induction fs generalizing l with
  | nil => rfl
  | cons f fs ih =>
    rw [List.foldl_cons, ih, Line.act_frame l f]

/-- The messages up to and with the last of a kind are none exactly when none of that kind waits. -/
theorem throughLast_eq_zero {α : Type} (kind : α → Bool) (l : List α) : throughLast kind l = 0 ↔ ∀ m ∈ l, kind m = false := by
  induction l with
  | nil => simp [throughLast]
  | cons m rest ih =>
    simp only [List.mem_cons, forall_eq_or_imp, ← ih, throughLast]
    cases hr : throughLast kind rest <;> cases kind m <;> simp

/-- With a message of the kind among those that wait, the first of them all is among those taken. -/
theorem throughLast_cons {α : Type} (kind : α → Bool) (m : α) (rest : List α) (h : ∃ x ∈ m :: rest, kind x = true) :
    throughLast kind (m :: rest) = throughLast kind rest + 1 := by
  have h0 : throughLast kind (m :: rest) ≠ 0 := fun e => by
    obtain ⟨x, hx, hk⟩ := h
    rw [(throughLast_eq_zero kind _).1 e x hx] at hk
    cases hk
  simp only [throughLast] at h0 ⊢
  cases hr : throughLast kind rest <;> cases hm : kind m <;> simp_all

/-- Taking a message of its Axis Unit takes the first from the queue, and changes of a line its state, its tick and, at a hold or a
resumption, its axis-held indication (R111, R113, R115). -/
theorem Line.takeAxisMsg_frame (l : Line) (m : LineMsg) :
    l.takeAxisMsg m = { l with
      fromAxis := l.fromAxis.tail, state := (l.takeAxisMsg m).state, tick := (l.takeAxisMsg m).tick
      axisHeld := match m with
        | .held => true
        | .resumed => false
        | .count _ => l.axisHeld
        | .stop => l.axisHeld } := by
  cases m with
  | count k =>
    unfold Line.takeAxisMsg Line.countEnd Line.endPulse
    dsimp only
    repeat' split
    all_goals rfl
  | stop =>
    unfold Line.takeAxisMsg Line.axisStop
    dsimp only
    repeat' split
    all_goals rfl
  | held => rfl
  | resumed => rfl

/-- The fire actions that wait play no part in taking a message. -/
theorem Line.takeAxisMsg_fromList (l : Line) (m : LineMsg) (fs : List FireAction) :
    { l with fromList := fs }.takeAxisMsg m = { l.takeAxisMsg m with fromList := fs } := by
  cases m with
  | count k =>
    unfold Line.takeAxisMsg Line.countEnd Line.endPulse
    dsimp only
    repeat' split
    all_goals rfl
  | stop =>
    unfold Line.takeAxisMsg Line.axisStop
    dsimp only
    repeat' split
    all_goals rfl
  | held => rfl
  | resumed => rfl

/-- Taking several messages takes so many from the queue, and changes of a line its state, its tick and its axis-held indication. -/
theorem Line.takeAxisMsgs_frame (l : Line) (k : Nat) :
    l.takeAxisMsgs k = { l with
      fromAxis := l.fromAxis.drop k, state := (l.takeAxisMsgs k).state, tick := (l.takeAxisMsgs k).tick
      axisHeld := (l.takeAxisMsgs k).axisHeld } := by
  induction k generalizing l with
  | zero => rfl
  | succ k ih =>
    unfold Line.takeAxisMsgs
    split
    · next m rest h => rw [ih, Line.takeAxisMsg_frame]; simp [h]
    · next h => rw [h, List.drop_nil, ← h]

/-- The fire actions that wait play no part in taking several messages. -/
theorem Line.takeAxisMsgs_fromList (l : Line) (k : Nat) (fs : List FireAction) :
    { l with fromList := fs }.takeAxisMsgs k = { l.takeAxisMsgs k with fromList := fs } := by
  induction k generalizing l with
  | zero => rfl
  | succ k ih =>
    unfold Line.takeAxisMsgs
    dsimp only
    split
    · next m rest h => rw [Line.takeAxisMsg_fromList, ih]
    · rfl

/-- The fire actions that wait play no part in an action's effect. -/
theorem Line.act_fromList (l : Line) (f : FireAction) (fs : List FireAction) :
    { l with fromList := fs }.act f = { l.act f with fromList := fs } := by
  have (l : Line) : ({ l with fromList := fs } : Line).retrigger = l.retrigger := rfl
  unfold Line.act
  dsimp only
  split
  · rfl
  · rfl
  · cases f.action <;> rfl
  · cases f.action <;> rfl
  · cases f.action with
    | pulse d u => dsimp only; rw [this]; cases l.retrigger <;> rfl
    | _ => rfl

/-- Taking a fire action: what was sent before its count event is gone from the queue, and of the rest of the line the state, the
suppressed count, the tick and the axis-held indication may have changed. -/
theorem Line.takeAction_frame (l : Line) (f : FireAction) :
    l.takeAction f = { l with
      fromAxis := l.fromAxis.drop (l.sentBefore f.serial), state := (l.takeAction f).state, tick := (l.takeAction f).tick
      suppressed := (l.takeAction f).suppressed, axisHeld := (l.takeAction f).axisHeld } := by
  unfold Line.takeAction
  rw [Line.act_frame, Line.takeAxisMsgs_frame]

/-- The fire actions that wait play no part in taking one. -/
theorem Line.takeAction_fromList (l : Line) (f : FireAction) (fs : List FireAction) :
    { l with fromList := fs }.takeAction f = { l.takeAction f with fromList := fs } := by
  have : ({ l with fromList := fs } : Line).sentBefore f.serial = l.sentBefore f.serial := rfl
  rw [Line.takeAction, this, Line.takeAxisMsgs_fromList, Line.act_fromList, Line.takeAction]

/-- An action whose count event is not behind another message in the queue has its effect at once (R107). -/
theorem Line.takeAction_at_once (l : Line) (f : FireAction) (h : LineMsg.count f.serial ∉ l.fromAxis.tail) :
    l.takeAction f = l.act f := by
  have : l.sentBefore f.serial = 0 := by
    unfold Line.sentBefore
    cases hq : l.fromAxis with
    | nil => rfl
    | cons m ms =>
      rw [hq, List.tail_cons] at h
      have : throughLast (fun m => decide (m = LineMsg.count f.serial)) ms = 0 :=
        (throughLast_eq_zero _ _).2 fun x hx => decide_eq_false fun e => h (e ▸ hx)
      rw [throughLast, this]
      dsimp only
      split <;> rfl
  rw [Line.takeAction, this, Line.takeAxisMsgs]

/-- An action whose count event is behind another message in the queue has the line take that message first (log 45). -/
theorem Line.takeAction_later (l : Line) (f : FireAction) (m : LineMsg) (ms : List LineMsg) (hq : l.fromAxis = m :: ms)
    (h : LineMsg.count f.serial ∈ ms) : l.takeAction f = (l.takeAxisMsg m).takeAction f := by
  have tail : (l.takeAxisMsg m).fromAxis = ms := by rw [Line.takeAxisMsg_frame, hq]; rfl
  have pos : throughLast (fun m => decide (m = LineMsg.count f.serial)) ms ≠ 0 := fun e => by
    simpa using (throughLast_eq_zero _ _).1 e _ h
  obtain ⟨k, hk⟩ := Nat.exists_eq_succ_of_ne_zero pos
  have here : l.sentBefore f.serial = k + 1 := by
    rw [Line.sentBefore, hq, throughLast_cons _ _ _ ⟨_, List.mem_cons_of_mem _ h, decide_eq_true rfl⟩, hk]; rfl
  have there : (l.takeAxisMsg m).sentBefore f.serial = k := by rw [Line.sentBefore, tail, hk]; rfl
  rw [Line.takeAction, here, Line.takeAction, there, Line.takeAxisMsgs, hq]

/-- Taking several actions leaves of a line all but its state, suppressed count, tick, axis-held indication and queue alone. -/
theorem Line.takeAction_foldl_frame (fs : List FireAction) (l : Line) :
    fs.foldl Line.takeAction l = { l with
      fromAxis := (fs.foldl Line.takeAction l).fromAxis, state := (fs.foldl Line.takeAction l).state
      suppressed := (fs.foldl Line.takeAction l).suppressed, tick := (fs.foldl Line.takeAction l).tick
      axisHeld := (fs.foldl Line.takeAction l).axisHeld } := by
  induction fs generalizing l with
  | nil => rfl
  | cons f fs ih => rw [List.foldl_cons, ih, Line.takeAction_frame l f]

/-- A line that has taken every fire action sent to it: its state, suppressed count, tick, axis-held indication and queue may differ,
and no action waits (R107). -/
theorem Line.actAll_frame (l : Line) :
    l.actAll = { l with
      state := l.actAll.state, suppressed := l.actAll.suppressed, tick := l.actAll.tick, axisHeld := l.actAll.axisHeld
      fromAxis := l.actAll.fromAxis, fromList := [] } :=
  Line.takeAction_foldl_frame l.fromList { l with fromList := [] }

/-- No fire action waits at a line that has taken all. -/
@[simp] theorem Line.actAll_fromList (l : Line) : l.actAll.fromList = [] := by rw [Line.actAll_frame]

/-- Taking all leaves the reference count alone. -/
@[simp] theorem Line.actAll_refCount (l : Line) : l.actAll.refCount = l.refCount := by rw [Line.actAll_frame]

/-- Taking all leaves the configuration alone. -/
@[simp] theorem Line.actAll_config (l : Line) : l.actAll.config = l.config := by rw [Line.actAll_frame]

/-- A line to which nothing was sent takes nothing. -/
theorem Line.actAll_idle (l : Line) (h : l.fromList = []) : l.actAll = l := by
  unfold Line.actAll
  rw [h, List.foldl_nil, ← h]

/-- Taking all is taking the oldest and then the others. -/
theorem Line.actAll_cons (l : Line) (f : FireAction) (rest : List FireAction) (h : l.fromList = f :: rest) :
    l.actAll = ({ l with fromList := rest }.takeAction f).actAll := by
  rw [Line.actAll, Line.actAll, h, List.foldl_cons, Line.takeAction_fromList l f []]
  simp only [Line.takeAction_fromList l f rest]

/-- Taking the actions that come before a count event leaves of a line all but its state, suppressed count, tick and waiting actions
alone (log 45). -/
theorem Line.actBefore_frame (l : Line) (k : Nat) :
    l.actBefore k = { l with
      state := (l.actBefore k).state, suppressed := (l.actBefore k).suppressed, tick := (l.actBefore k).tick
      fromList := l.fromList.dropWhile fun f => l.precedes f.serial k } :=
  Line.act_foldl_frame _ _

/-- With no action before the count event, none is taken. -/
theorem Line.actBefore_none (l : Line) (k : Nat) (h : ∀ f rest, l.fromList = f :: rest → l.precedes f.serial k = false) :
    l.actBefore k = l := by
  unfold Line.actBefore
  cases hq : l.fromList with
  | nil => rw [List.takeWhile_nil, List.dropWhile_nil, List.foldl_nil, ← hq]
  | cons f rest =>
    have hf := h f rest hq
    rw [List.takeWhile_cons_of_neg (by simp [hf]), List.dropWhile_cons_of_neg (by simp [hf]), List.foldl_nil, ← hq]

/-- The oldest action, where it comes before the count event, is taken first, and then the others. -/
theorem Line.actBefore_cons (l : Line) (k : Nat) (f : FireAction) (rest : List FireAction) (hq : l.fromList = f :: rest)
    (h : l.precedes f.serial k = true) : l.actBefore k = ({ l with fromList := rest }.act f).actBefore k := by
  have same (g : FireAction) : ({ l with fromList := rest }.act f).precedes g.serial k = l.precedes g.serial k := by
    rw [Line.act_frame]; rfl
  unfold Line.actBefore
  rw [hq, List.takeWhile_cons_of_pos (by exact h), List.dropWhile_cons_of_pos (by exact h), List.foldl_cons]
  simp only [same]
  rw [Line.act_fromList l f (rest.dropWhile _), Line.act_fromList l f rest]

/-- A retirement at a list makes of the pool what a release makes of it (R45). -/
theorem State.retire_pool (s : State) (e : Entry) :
    (s.retire e).pool = ⟨s.pool.free + 1, s.pool.quota, s.pool.live.set e.owner (s.pool.live[e.owner] - 1)⟩ := rfl

/-- A retirement at a list: the entry's line takes the actions it was sent, and then loses a reference; no other line changes
(R45, R107). -/
theorem State.retire_line (s : State) (e : Entry) (n : LineId) :
    (s.retire e).line n =
      if e.line = n then { (s.line n).actAll with refCount := (s.line n).refCount - 1 } else s.line n := by
  unfold State.retire
  rw [State.release_line, State.updLine_line]
  split
  · next h => subst h; simp
  · rfl

/-- A retirement at a list tells the record processors what a release tells them (R45). -/
theorem State.retire_proc (s : State) (e : Entry) (p : PairId) : (s.retire e).proc p = (s.release e).proc p := by
  simp only [State.retire, State.release, State.updProcs_proc]
  rfl

/-- No release waits exactly when the notices up to and with the last release are none (R120, R182). -/
theorem throughRelease_eq_zero (l : List TripMsg) : throughRelease l = 0 ↔ .release ∉ l := by
  unfold throughRelease
  rw [throughLast_eq_zero]
  exact ⟨fun h hm => by simpa using h _ hm, fun h m hm => by simpa using fun e : m = .release => h (e ▸ hm)⟩

/-- The notices up to and with the last release are those before it and itself. -/
theorem throughRelease_append (before after : List TripMsg) (h : .release ∉ after) :
    throughRelease (before ++ .release :: after) = before.length + 1 := by
  induction before with
  | nil =>
    have h0 : throughLast (fun m => decide (m = TripMsg.release)) after = 0 := (throughRelease_eq_zero after).2 h
    simp [throughRelease, throughLast, h0]
  | cons m rest ih =>
    rw [List.cons_append]
    unfold throughRelease at ih ⊢
    rw [throughLast_cons _ _ _ ⟨.release, by simp⟩, ih]
    rfl

/-- A QUERY of anything but a line to which a release was sent finds nothing taken for it (R120, R182). -/
theorem State.settle_unchanged (s : State) (q : QueryOf) (h : ∀ n, q = .line n → .release ∉ (s.line n).fromMonitor) :
    s.settle q = s := by
  cases q with
  | line n => simp [State.settle, (throughRelease_eq_zero _).2 (h n rfl), State.takeNotices]
  | _ => rfl

/-! ## Several releases and retirements at once -/

/-- A processor that is told of releases one after another is told of them all. -/
theorem Proc.told_cons (x : Proc) (p : PairId) (live : Vector Nat 9) (ts : Nat) (e : Entry) (es : List Entry) :
    x.told p live ts (e :: es) = (x.told p live ts [e]).told p (live.set e.owner (live[e.owner] - 1)) ts es := by
  match x with
  | .busy k c (.waiting b) => by_cases h : e.owner = p <;> simp [Proc.told, h]
  | .busy k c (.discarding q r none) =>
    have told (l : Vector Nat 9) (fs : List Entry) : (Proc.busy k c (.discarding q r none)).told p l ts fs =
        if p = 0 ∧ 0 < fs.countP (fun f => f.owner == q) ∧ l[q.val] ≤ fs.countP (fun f => f.owner == q)
        then .busy k c (.discarding q r (some ts)) else .busy k c (.discarding q r none) := rfl
    have kept (l : Vector Nat 9) (fs : List Entry) : (Proc.busy k c (.discarding q r (some ts))).told p l ts fs =
        .busy k c (.discarding q r (some ts)) := rfl
    rw [told, told]
    by_cases hq : e.owner = q
    · subst hq
      rw [List.countP_cons_of_pos (by simp), List.countP_cons_of_pos (by simp), List.countP_nil, zero_add]
      generalize hn : es.countP (fun f => f.owner == e.owner) = n
      by_cases hp : p = 0
      · by_cases h1 : live[e.owner.val] ≤ 1
        · rw [if_pos ⟨hp, by omega, by omega⟩, if_pos ⟨hp, by omega, h1⟩, kept]
        · rw [if_neg (c := p = 0 ∧ 0 < 1 ∧ _) fun h => h1 h.2.2, told, Vector.getElem_set_self, Fin.getElem_fin, hn]
          by_cases h2 : live[e.owner.val] ≤ n + 1
          · rw [if_pos ⟨hp, by omega, h2⟩, if_pos ⟨hp, by omega, by omega⟩]
          · rw [if_neg fun h => h2 h.2.2, if_neg fun h => h2 (by omega)]
      · rw [if_neg fun h => hp h.1, if_neg (c := p = 0 ∧ 0 < 1 ∧ _) fun h => hp h.1, told, if_neg fun h => hp h.1]
    · have hv : e.owner.val ≠ q.val := fun h => hq (Fin.ext h)
      rw [List.countP_cons_of_neg (by simpa using hq), List.countP_cons_of_neg (by simpa using hq), List.countP_nil,
        if_neg (c := p = 0 ∧ 0 < 0 ∧ _) fun h => absurd h.2.1 (by omega), told, Vector.getElem_set_ne _ _ hv]
  | .busy _ _ (.discarding _ _ (some _)) => rfl
  | .busy _ _ (.allocateArm _ _) => rfl
  | .busy _ _ (.allocateDeferred _ _ _) => rfl
  | .busy _ _ (.inserting _ _) => rfl
  | .busy _ _ (.appending _ _ _) => rfl
  | .busy _ _ (.writing _ _) => rfl
  | .busy _ _ (.cancelling _ _ _) => rfl
  | .busy _ _ (.cancellingAxis _ _) => rfl
  | .busy _ _ (.querying _) => rfl
  | .busy _ _ (.draining _ _) => rfl
  | .busy _ _ .acked => rfl
  | .idle => rfl

/-- A processor that is told of no release stays. -/
@[simp] theorem Proc.told_nil (x : Proc) (p : PairId) (live : Vector Nat 9) (ts : Nat) : x.told p live ts [] = x := by
  unfold Proc.told
  split <;> simp

/-- What one release tells a processor (R45, R151). -/
theorem State.release_proc (s : State) (e : Entry) (p : PairId) :
    (s.release e).proc p = (s.proc p).told p s.pool.live s.ts [e] := by
  have h : (s.release e).proc p =
      let x := if p = e.owner then (s.proc p).notify e.group s.ts else s.proc p
      if p = 0 then x.noteEmptied e.owner (s.pool.live[e.owner] - 1) s.ts else x := by
    unfold State.release
    rw [State.updProcs_proc]
    rfl
  rw [h]
  cases s.proc p with
  | idle => simp [Proc.told, Proc.notify, Proc.noteEmptied]
  | busy k c ph =>
    cases ph with
    | discarding q r z =>
      cases z with
      | some t => by_cases h0 : p = 0 <;> simp [Proc.told, Proc.notify, Proc.noteEmptied]
      | none =>
        by_cases hq : e.owner = q
        · subst hq
          by_cases h0 : p = 0 <;> simp [Proc.told, Proc.notify, Proc.noteEmptied, h0, Nat.sub_eq_zero_iff_le]
        · have hq' : ¬q = e.owner := fun h => hq h.symm
          by_cases h0 : p = 0 <;> simp [Proc.told, Proc.notify, Proc.noteEmptied, hq, hq']
    | waiting b =>
      by_cases hp : p = e.owner
      · subst hp
        simp [Proc.told, Proc.notify, Proc.noteEmptied]
      · have hp' : ¬e.owner = p := fun h => hp h.symm
        simp [Proc.told, Proc.noteEmptied, hp, hp']
    | _ => simp [Proc.told, Proc.notify, Proc.noteEmptied]

/-- The live counts after one release and then several are those after all of them. -/
theorem live_cons (live : Vector Nat 9) (e : Entry) (es : List Entry) :
    (Vector.ofFn fun p : PairId => (live.set e.owner (live[e.owner] - 1))[p] - es.countP fun f => f.owner == p) =
      Vector.ofFn fun p : PairId => live[p] - (e :: es).countP fun f => f.owner == p := by
  congr 1
  funext p
  by_cases h : e.owner = p
  · subst h
    simp
    omega
  · have hv : e.owner.val ≠ p.val := fun e' => h (Fin.ext e')
    simp [h, Vector.getElem_set_ne _ _ hv]

/-- A release changes the pool, one line and the processors. -/
theorem State.release_frame (s : State) (e : Entry) :
    s.release e = { s with pool := (s.release e).pool, lines := (s.release e).lines, procs := (s.release e).procs } := by
  rfl

/-- The releases of several entries, one after another, in one formula (R45). -/
theorem State.releaseAll_eq (s : State) (es : List Entry) : s.releaseAll es = s.afterReleases es := by
  induction es generalizing s with
  | nil => simp [State.releaseAll, State.afterReleases, State.line, State.proc]
  | cons e es ih =>
    have h : s.releaseAll (e :: es) = (s.release e).releaseAll es := rfl
    have hl : (Vector.ofFn fun n => { (s.release e).line n with
        refCount := ((s.release e).line n).refCount - es.countP fun f => f.line == n } : Vector Line 16) =
        Vector.ofFn fun n => { s.line n with refCount := (s.line n).refCount - (e :: es).countP fun f => f.line == n } := by
      congr 1
      funext n
      rw [State.release_line]
      by_cases hn : e.line = n
      · simp [hn, Nat.sub_sub, Nat.add_comm]
      · simp [hn]
    have hp : (Vector.ofFn fun p => ((s.release e).proc p).told p (s.release e).pool.live s.ts es) =
        Vector.ofFn fun p => (s.proc p).told p s.pool.live s.ts (e :: es) := by
      congr 1
      funext p
      rw [Proc.told_cons, State.release_proc]
      rfl
    rw [h, ih]
    unfold State.afterReleases
    rw [hl, State.release_ts, hp, State.release_pool, live_cons, State.release_frame]
    simp [Nat.add_assoc, Nat.add_comm 1]

/-- One release (R45). -/
theorem State.release_eq (s : State) (e : Entry) : s.release e = s.afterReleases [e] := State.releaseAll_eq s [e]

/-- The retirements of several entries at a list, one after another, in one formula (R45, R107). -/
theorem State.retireAll_eq (s : State) (es : List Entry) : s.retireAll es = s.afterRetirements es := by
  induction es generalizing s with
  | nil => simp [State.retireAll, State.afterRetirements, State.afterReleases, State.line, State.proc]
  | cons e es ih =>
    have h : s.retireAll (e :: es) = (s.retire e).retireAll es := rfl
    have hl : (Vector.ofFn fun n =>
        let k := es.countP fun f => f.line == n
        if k = 0 then (s.retire e).line n
        else { ((s.retire e).line n).actAll with refCount := ((s.retire e).line n).refCount - k } : Vector Line 16) =
        Vector.ofFn fun n =>
          let k := (e :: es).countP fun f => f.line == n
          if k = 0 then s.line n else { (s.line n).actAll with refCount := (s.line n).refCount - k } := by
      congr 1
      funext n
      rw [State.retire_line]
      by_cases hn : e.line = n
      · have acts (k : Nat) : ({ (s.line n).actAll with refCount := k } : Line).actAll = { (s.line n).actAll with refCount := k } :=
          Line.actAll_idle _ (Line.actAll_fromList _)
        by_cases hk : es.countP (fun f => f.line == n) = 0
        · simp [hn, hk]
        · rw [if_pos hn, acts]
          simp [hn, hk, Nat.sub_sub, Nat.add_comm]
      · simp [hn]
    have hp : (Vector.ofFn fun p => ((s.retire e).proc p).told p (s.retire e).pool.live s.ts es) =
        Vector.ofFn fun p => (s.proc p).told p s.pool.live s.ts (e :: es) := by
      congr 1
      funext p
      rw [Proc.told_cons, State.retire_proc, State.release_proc]
      rfl
    have hf : s.retire e =
        { s with pool := (s.retire e).pool, lines := (s.retire e).lines, procs := (s.retire e).procs } := rfl
    rw [h, ih]
    unfold State.afterRetirements State.afterReleases
    rw [hl, State.retire_ts, hp, State.retire_pool, live_cons, hf]
    simp [Nat.add_assoc, Nat.add_comm 1]

/-- One retirement at a list (R45, R107). -/
theorem State.retire_eq (s : State) (e : Entry) : s.retire e = s.afterRetirements [e] := State.retireAll_eq s [e]

/-! ## The expiry of a deadline -/

/-- A deadline has expired once a tick at or past it has been offered (R5). -/
theorem expiresAt_iff (expired : Bool) (deadline : Option Nat) (ts : Nat) :
    expiresAt expired deadline ts = true ↔ expired = true ∨ ∃ d, deadline = some d ∧ d ≤ ts := by
  unfold expiresAt
  cases deadline <;> simp

/-- A processor with no BARRIER in progress takes no expiry. -/
theorem State.timeOut_other (s : State) (p : PairId) (h : ∀ k c b, s.proc p ≠ .busy k c (.waiting b)) : s.timeOut p = s := by
  unfold State.timeOut
  split
  · next b hb =>
    cases hx : s.proc p with
    | idle => rw [hx] at hb; cases hb
    | busy k c ph => rw [hx] at hb; cases hb; exact absurd hx (h k c b)
  · rfl

/-- A BARRIER whose deadline has expired is answered TIMED_OUT, and any other stays (R180). -/
theorem State.timeOut_waiting (s : State) (p : PairId) (k : Byte) (c : W32) (b : BarrierWait)
    (h : s.proc p = .busy k c (.waiting b)) :
    s.timeOut p = if b.expired then s.withAck p k c .timedOut b.remaining s.ts else s := by
  simp [State.timeOut, h, Proc.phase, State.handAck_busy s p k c _ _ _ _ h]

/-- Taking an expiry changes the processor's own side alone: it depends on its own processor, its own requests and the timestamp. -/
theorem State.timeOut_frame (s : State) (p : PairId) :
    s.timeOut p = { s with procs := s.procs.set p ((s.timeOut p).proc p), cqReq := s.cqReq.set p ((s.timeOut p).requests p) } := by
  by_cases h : ∃ k c b, s.proc p = .busy k c (.waiting b)
  · obtain ⟨k, c, b, h⟩ := h
    rw [State.timeOut_waiting s p k c b h]
    split
    · simp [State.withAck, State.proc, State.requests]
    · simp [State.proc, State.requests]
  · rw [State.timeOut_other s p fun k c b e => h ⟨k, c, b, e⟩]
    simp [State.proc, State.requests]

/-- What a processor makes of a waiting expiry does not depend on the other processors. -/
theorem State.timeOut_local (s t : State) (p : PairId) (hp : t.proc p = s.proc p) (hr : t.requests p = s.requests p) (hs : t.ts = s.ts) :
    (t.timeOut p).proc p = (s.timeOut p).proc p ∧ (t.timeOut p).requests p = (s.timeOut p).requests p := by
  by_cases h : ∃ k c b, s.proc p = .busy k c (.waiting b)
  · obtain ⟨k, c, b, h⟩ := h
    rw [State.timeOut_waiting s p k c b h, State.timeOut_waiting t p k c b (hp.trans h)]
    split
    · simp only [State.requests] at hr
      simp [State.withAck, State.proc, State.requests, hr, hs]
    · exact ⟨hp, hr⟩
  · rw [State.timeOut_other s p fun k c b e => h ⟨k, c, b, e⟩, State.timeOut_other t p fun k c b e => h ⟨k, c, b, hp.symm.trans e⟩]
    exact ⟨hp, hr⟩

/-- When several processors take their waiting expiries, each does it as if it were alone, and nothing else changes. -/
theorem State.timeOut_foldl (l : List PairId) (hl : l.Nodup) (s : State) :
    (∀ p, (l.foldl State.timeOut s).proc p = if p ∈ l then (s.timeOut p).proc p else s.proc p) ∧
    (∀ p, (l.foldl State.timeOut s).requests p = if p ∈ l then (s.timeOut p).requests p else s.requests p) ∧
    l.foldl State.timeOut s = { s with procs := (l.foldl State.timeOut s).procs, cqReq := (l.foldl State.timeOut s).cqReq } := by
  induction l generalizing s with
  | nil => exact ⟨fun p => by simp, fun p => by simp, rfl⟩
  | cons a l ih =>
    rw [List.nodup_cons] at hl
    obtain ⟨hp, hr, hf⟩ := ih hl.2 (s.timeOut a)
    have other : ∀ p, p ≠ a → (s.timeOut a).proc p = s.proc p ∧ (s.timeOut a).requests p = s.requests p := fun p h => by
      rw [State.timeOut_frame]
      have : a.val ≠ p.val := fun e => h (Fin.ext e.symm)
      simp [State.proc, State.requests, this]
    have ts : (s.timeOut a).ts = s.ts := by rw [State.timeOut_frame]
    have own : ∀ p, p ≠ a → ((s.timeOut a).timeOut p).proc p = (s.timeOut p).proc p ∧
        ((s.timeOut a).timeOut p).requests p = (s.timeOut p).requests p := fun p h =>
      State.timeOut_local s (s.timeOut a) p (other p h).1 (other p h).2 ts
    refine ⟨fun p => ?_, fun p => ?_, ?_⟩
    · rw [List.foldl_cons, hp]
      by_cases h : p = a
      · subst h; simp [hl.1]
      · simp [h, (other p h).1, (own p h).1]
    · rw [List.foldl_cons, hr]
      by_cases h : p = a
      · subst h; simp [hl.1]
      · simp [h, (other p h).2, (own p h).2]
    · rw [List.foldl_cons, hf, State.timeOut_frame s a]

/-- Before a tick each processor takes the expiry that waits for it, as if it were alone (R180). -/
theorem State.timeOutAll_proc (s : State) (p : PairId) : s.timeOutAll.proc p = (s.timeOut p).proc p := by
  simpa [State.timeOutAll] using (State.timeOut_foldl (List.finRange 9) (List.nodup_finRange 9) s).1 p

/-- Before a tick each processor takes the expiry that waits for it, as if it were alone (R180). -/
theorem State.timeOutAll_requests (s : State) (p : PairId) : s.timeOutAll.requests p = (s.timeOut p).requests p := by
  simpa [State.timeOutAll] using (State.timeOut_foldl (List.finRange 9) (List.nodup_finRange 9) s).2.1 p

/-- Taking the expiries changes processors and their requests alone. -/
theorem State.timeOutAll_frame (s : State) : s.timeOutAll = { s with procs := s.timeOutAll.procs, cqReq := s.timeOutAll.cqReq } :=
  (State.timeOut_foldl (List.finRange 9) (List.nodup_finRange 9) s).2.2

/-! ## Holds -/

/-- A hold request at an UNCONFIGURED axis is ignored, and one whose cause is in the set changes nothing (R26). -/
theorem State.hold_unchanged (s : State) (a : AxisId) (c : Cause)
    (h : (s.axis a).state = .unconfigured ∨ ((s.axis a).isHeld = true ∧ (s.axis a).causes.has c = true)) : s.hold a c = s := by
  unfold State.hold
  rcases h with h | ⟨h, hc⟩
  · rw [h]
  · unfold Axis.isHeld at h
    split at h
    · next t ht => simp [hc, ht]
    · cases h

/-! ## Errors of the Ring Engine -/

/-- A second device fault changes nothing (R143). -/
theorem State.setFault_again (s : State) (c d : ErrorCause) (h : s.fault = some d) : s.setFault c = s := by
  unfold State.setFault
  rw [h]

/-- An error cause is set once, and a pair that is ABSENT or in ERROR takes none (R148). -/
theorem State.setCause_unchanged (s : State) (p : PairId) (c : ErrorCause)
    (h : (s.pair p).cause ≠ none ∨ (s.pair p).state = .absent ∨ (s.pair p).state = .error) : s.setCause p c = s := by
  unfold State.setCause
  split
  · next h1 h2 => rcases h with h | h | h <;> simp_all
  · next h1 h2 => rcases h with h | h | h <;> simp_all
  · rfl

/-! ## A compare list -/

/-- Placing an entry adds it to the list's entries and nothing else (R55). -/
theorem insertArmed_perm (x : Armed) (l : List Armed) : (insertArmed x l).Perm (x :: l) := by
  induction l with
  | nil => exact List.Perm.refl _
  | cons y ys ih =>
    unfold insertArmed
    split
    · exact List.Perm.refl _
    · exact (List.Perm.cons y ih).trans (List.Perm.swap x y ys)

/-- Placing an entry keeps a list in its order (R55). -/
theorem insertArmed_inOrder (x : Armed) (l : List Armed) (h : l.Pairwise Armed.inOrder) :
    (insertArmed x l).Pairwise Armed.inOrder := by
  induction l with
  | nil => simp [insertArmed]
  | cons y ys ih =>
    rw [List.pairwise_cons] at h
    unfold insertArmed
    split
    · next hb =>
      have hxy : x.pos < y.pos ∨ (x.pos = y.pos ∧ x.order < y.order) := by simpa [Armed.before] using hb
      refine List.pairwise_cons.2 ⟨fun z hz => ?_, List.pairwise_cons.2 h⟩
      rcases List.mem_cons.1 hz with rfl | hz
      · unfold Armed.inOrder; omega
      · have := h.1 z hz; unfold Armed.inOrder at *; omega
    · next hb =>
      have hxy : ¬(x.pos < y.pos ∨ (x.pos = y.pos ∧ x.order < y.order)) := by simpa [Armed.before] using hb
      refine List.pairwise_cons.2 ⟨fun z hz => ?_, ih h.2⟩
      rcases List.mem_cons.1 ((insertArmed_perm x ys).mem_iff.1 hz) with rfl | hz
      · unfold Armed.inOrder; omega
      · exact h.1 z hz

/-- A frozen list evaluates no count event (R62). -/
theorem State.crossing_frozen (s : State) (a : AxisId) (k : Count) (h : (s.clist a).frozen = true) : s.crossing a k = s := by
  unfold State.crossing
  simp [h]

end Sys2Proof.Machine
end

