-- ==== Sys2Proof/Laws/Tick.lean ====
section
/-! SUPPORT. What a compare list's taking of its inbox can do, what comes before a count event at a line, and what is taken before
a tick (R3, R5, R59, R70, R111). -/

namespace Sys2Proof.Machine

/-! ## What the fires of a list can change (R60) -/

/-- From `s` to `t` only entries of lists and their next arm orders, the pool, lines, processors and reports have changed. -/
def FiresOnly (s t : State) : Prop :=
  t = { s with lists := t.lists, pool := t.pool, lines := t.lines, procs := t.procs, cqReq := t.cqReq } ∧
  ∀ b, t.clist b = { s.clist b with entries := (t.clist b).entries, nextArm := (t.clist b).nextArm }

theorem FiresOnly.refl (s : State) : FiresOnly s s := ⟨rfl, fun _ => rfl⟩

theorem FiresOnly.trans {s t u : State} (h : FiresOnly s t) (h' : FiresOnly t u) : FiresOnly s u := by
  refine ⟨?_, fun b => ?_⟩
  · rw [h'.1, h.1]
  · rw [h'.2 b, h.2 b]

theorem FiresOnly.foldl {α : Type} (f : State → α → State) (h : ∀ s x, FiresOnly s (f s x)) (l : List α) (s : State) :
    FiresOnly s (l.foldl f s) := by
  induction l generalizing s with
  | nil => exact .refl s
  | cons x l ih => exact (h s x).trans (ih _)

theorem FiresOnly.retire (s : State) (e : Entry) : FiresOnly s (s.retire e) := ⟨rfl, fun b => by simp [State.clist]⟩

theorem FiresOnly.updList (s : State) (a : AxisId) (f : CList → CList)
    (h : ∀ l, f l = { l with entries := (f l).entries, nextArm := (f l).nextArm }) : FiresOnly s (s.updList a f) := by
  refine ⟨rfl, fun b => ?_⟩
  rw [State.updList_clist]
  split
  · next e => subst e; exact h _
  · rfl

theorem FiresOnly.reportRetire (s : State) (e : Entry) (r : Reason) (pos : Int) (serial stamp : Nat) :
    FiresOnly s (s.reportRetire e r pos serial stamp) := by
  unfold State.reportRetire
  split
  · exact ⟨rfl, fun _ => rfl⟩
  · exact .refl s

theorem FiresOnly.advance (s : State) (a : AxisId) (k : AxisKind) (e : Entry) (order : Option Nat) (f : FirePoint) :
    FiresOnly s (s.advance a k e order f) := by
  unfold State.advance
  split
  · exact (FiresOnly.reportRetire ..).trans (.retire ..)
  · split
    · exact (FiresOnly.reportRetire ..).trans (.retire ..)
    · exact .updList _ _ _ fun l => by cases order <;> rfl

/-- A fire (R60). -/
theorem FiresOnly.fire (s : State) (a : AxisId) (k : AxisKind) (e : Entry) (order : Option Nat) (f : FirePoint) (reports : Bool) :
    FiresOnly s (s.fire a k e order f reports) := by
  have sent : FiresOnly s (s.sendAction e.line ⟨e.action, f.serial, f.stamp⟩) := ⟨rfl, fun _ => rfl⟩
  have told (u : State) (p : PairId) (q : CqRequest) : FiresOnly u (u.handReport p q) := ⟨rfl, fun _ => rfl⟩
  unfold State.fire
  refine sent.trans ?_
  dsimp only
  split <;> split
  · exact (told ..).trans (.retire ..)
  · exact .retire ..
  · exact (told ..).trans (.advance ..)
  · exact .advance ..

/-- A crossing (R59). -/
theorem FiresOnly.crossing (s : State) (a : AxisId) (k : Count) : FiresOnly s (s.crossing a k) := by
  unfold State.crossing
  split
  · exact .refl s
  · split
    · exact .foldl _ (fun u x => (FiresOnly.updList u a _ fun l => rfl).trans (.fire ..)) _ _
    · exact .refl s

/-! ## Taking the inbox of a list (R57) -/

/-- A message taken leaves the rest of the inbox, and changes no other list's. -/
theorem State.takeListMsg_inbox (s : State) (a b : AxisId) (m : ListMsg) :
    ((s.takeListMsg a m).clist b).inbox = if a = b then (s.clist a).inbox.tail else (s.clist b).inbox := by
  cases m with
  | count k =>
    unfold State.takeListMsg
    rw [(FiresOnly.crossing (s.popInbox a) a k).2 b, State.popInbox, State.updList_clist]
    split <;> simp_all
  | freeze => simp only [State.takeListMsg, State.popInbox, State.updList_clist]; split <;> simp_all
  | unfreeze => simp only [State.takeListMsg, State.popInbox, State.updList_clist]; split <;> simp_all

/-- What a message taken leaves alone (R57, R59, R75). -/
theorem State.takeListMsg_frame (s : State) (a : AxisId) (m : ListMsg) :
    s.takeListMsg a m = { s with
      lists := (s.takeListMsg a m).lists, pool := (s.takeListMsg a m).pool, lines := (s.takeListMsg a m).lines
      procs := (s.takeListMsg a m).procs, cqReq := (s.takeListMsg a m).cqReq } := by
  cases m with
  | count k => exact (FiresOnly.crossing (s.popInbox a) a k).1
  | freeze => rfl
  | unfreeze => rfl

/-- What several messages taken leave alone. -/
theorem State.takeListMsgs_frame (s : State) (a : AxisId) (n : Nat) :
    s.takeListMsgs a n = { s with
      lists := (s.takeListMsgs a n).lists, pool := (s.takeListMsgs a n).pool, lines := (s.takeListMsgs a n).lines
      procs := (s.takeListMsgs a n).procs, cqReq := (s.takeListMsgs a n).cqReq } := by
  induction n generalizing s with
  | zero => rfl
  | succ n ih =>
    unfold State.takeListMsgs
    split
    · next m _ _ => rw [ih, State.takeListMsg_frame]
    · rfl

/-- What every message taken keeps, several of them keep. -/
theorem State.takeListMsgs_keeps (P : State → Prop) (a : AxisId)
    (h : ∀ s m rest, P s → (s.clist a).inbox = m :: rest → P (s.takeListMsg a m)) (n : Nat) (s : State) (hs : P s) :
    P (s.takeListMsgs a n) := by
  induction n generalizing s with
  | zero => exact hs
  | succ n ih =>
    unfold State.takeListMsgs
    split
    · next m rest hm => exact ih _ (h s m rest hs hm)
    · exact hs

/-- With no count event in its inbox, the list takes nothing (R70). -/
theorem State.takeCounts_none (s : State) (a : AxisId) (h : ∀ k, ListMsg.count k ∉ (s.clist a).inbox) : s.takeCounts a = s := by
  have : throughLast ListMsg.isCount (s.clist a).inbox = 0 := (throughLast_eq_zero _ _).2 fun m hm => by
    cases m with
    | count k => exact absurd hm (h k)
    | freeze => rfl
    | unfreeze => rfl
  simp [State.takeCounts, this, State.takeListMsgs]

/-- With a count event in its inbox, the list takes the first message, and then goes on (R57). -/
theorem State.takeCounts_cons (s : State) (a : AxisId) (m : ListMsg) (rest : List ListMsg) (h : (s.clist a).inbox = m :: rest)
    (hk : ∃ k, ListMsg.count k ∈ (s.clist a).inbox) : s.takeCounts a = (s.takeListMsg a m).takeCounts a := by
  obtain ⟨k, hk⟩ := hk
  unfold State.takeCounts
  rw [h] at hk
  rw [h, throughLast_cons _ _ _ ⟨_, hk, rfl⟩, State.takeListMsg_inbox, if_pos rfl, h, List.tail_cons, State.takeListMsgs, h]

/-- What the list's taking of its count events leaves alone. -/
theorem State.takeCounts_frame (s : State) (a : AxisId) :
    s.takeCounts a = { s with
      lists := (s.takeCounts a).lists, pool := (s.takeCounts a).pool, lines := (s.takeCounts a).lines
      procs := (s.takeCounts a).procs, cqReq := (s.takeCounts a).cqReq } := State.takeListMsgs_frame ..

/-- What every message taken keeps, the list's taking of its count events keeps. -/
theorem State.takeCounts_keeps (P : State → Prop) (a : AxisId)
    (h : ∀ s m rest, P s → (s.clist a).inbox = m :: rest → P (s.takeListMsg a m)) (s : State) (hs : P s) : P (s.takeCounts a) :=
  State.takeListMsgs_keeps P a h _ s hs

/-- Afterwards the list's inbox holds no count event, and another list's inbox is as it was. -/
theorem State.takeCounts_inbox (s : State) (a b : AxisId) :
    ((s.takeCounts a).clist b).inbox =
      if a = b then (s.clist a).inbox.drop (throughLast ListMsg.isCount (s.clist a).inbox) else (s.clist b).inbox := by
  unfold State.takeCounts
  generalize throughLast ListMsg.isCount (s.clist a).inbox = n
  induction n generalizing s with
  | zero => simp only [State.takeListMsgs, List.drop_zero]; split <;> simp_all
  | succ n ih =>
    unfold State.takeListMsgs
    split
    · next m rest hm =>
      rw [ih, State.takeListMsg_inbox, State.takeListMsg_inbox]
      by_cases e : a = b
      · subst e; simp [hm]
      · simp [e]
    · next hm =>
      by_cases e : a = b
      · subst e; simp [hm]
      · simp [e]

/-- What is left behind the last message of a kind holds none of that kind. -/
theorem throughLast_drop {α : Type} (kind : α → Bool) (l : List α) : ∀ m ∈ l.drop (throughLast kind l), kind m = false := by
  induction l with
  | nil => simp [throughLast]
  | cons x l ih =>
    by_cases h : ∃ y ∈ x :: l, kind y = true
    · rw [throughLast_cons kind x l h]; exact ih
    · have h' : ∀ y ∈ x :: l, kind y = false := fun y hy => by simpa using fun e => h ⟨y, hy, e⟩
      rw [(throughLast_eq_zero kind _).2 h']; exact h'

/-- Afterwards no count event waits for the list (R70). -/
theorem State.takeCounts_done (s : State) (a : AxisId) (k : Count) : ListMsg.count k ∉ ((s.takeCounts a).clist a).inbox := by
  rw [State.takeCounts_inbox, if_pos rfl]
  exact fun h => by simpa [ListMsg.isCount] using throughLast_drop ListMsg.isCount _ _ h

/-! ## What comes before a count event at a line (R111, log 45) -/

/-- The line's binding and its queue are these, and no fire action that waits at it belongs to a count event in the queue. -/
def QueueKept (n : LineId) (g : LineConfig) (q : List LineMsg) (s : State) : Prop :=
  (s.line n).config = g ∧ (s.line n).fromAxis = q ∧ ∀ f ∈ (s.line n).fromList, LineMsg.count f.serial ∉ q.tail

/-- A line that takes actions none of whose count events waits behind another message keeps its queue. -/
theorem QueueKept.actAll {l : Line} {q : List LineMsg} (hq : l.fromAxis = q)
    (hf : ∀ f ∈ l.fromList, LineMsg.count f.serial ∉ q.tail) : l.actAll.fromAxis = q := by
  have fold (fs : List FireAction) (h : ∀ f ∈ fs, LineMsg.count f.serial ∉ q.tail) :
      ∀ l : Line, l.fromAxis = q → (fs.foldl Line.takeAction l).fromAxis = q := by
    induction fs with
    | nil => exact fun l hl => hl
    | cons f fs ih =>
      intro l hl
      refine ih (fun g hg => h g (List.mem_cons_of_mem _ hg)) _ ?_
      rw [Line.takeAction_at_once l f (hl ▸ h f List.mem_cons_self), Line.act_frame]
      exact hl
  exact fold _ hf _ hq

/-- A retirement keeps the queue. -/
theorem QueueKept.retire {n : LineId} {g : LineConfig} {q : List LineMsg} {s : State} (h : QueueKept n g q s) (e : Entry) :
    QueueKept n g q (s.retire e) := by
  obtain ⟨hg, hq, hf⟩ := h
  have line := State.retire_line s e n
  by_cases hn : e.line = n
  · rw [if_pos hn] at line
    exact ⟨by rw [line]; simpa using hg, by rw [line]; exact QueueKept.actAll hq hf, by rw [line]; simp⟩
  · rw [if_neg hn] at line
    exact ⟨by rw [line]; exact hg, by rw [line]; exact hq, by rw [line]; exact hf⟩

/-- Every fire of a count event that is not in the line's queue keeps the queue. -/
theorem QueueKept.fire {n : LineId} {g : LineConfig} {q : List LineMsg} {s : State} (h : QueueKept n g q s) (a : AxisId) (k : AxisKind)
    (e : Entry) (order : Option Nat) (f : FirePoint) (reports : Bool) (hs : LineMsg.count f.serial ∉ q.tail) :
    QueueKept n g q (s.fire a k e order f reports) := by
  have sent : QueueKept n g q (s.sendAction e.line ⟨e.action, f.serial, f.stamp⟩) := by
    obtain ⟨hg, hq, hf⟩ := h
    unfold State.sendAction QueueKept
    rw [State.updLine_line]
    by_cases hn : e.line = n
    · subst hn
      rw [if_pos rfl]
      refine ⟨hg, hq, fun x hx => ?_⟩
      rcases List.mem_append.1 hx with hx | hx
      · exact hf x hx
      · rw [List.mem_singleton.1 hx]; exact hs
    · rw [if_neg hn]; exact ⟨hg, hq, hf⟩
  have advance (u : State) (hu : QueueKept n g q u) (e : Entry) : QueueKept n g q (u.advance a k e order f) := by
    unfold State.advance State.reportRetire
    split
    · split <;> exact QueueKept.retire (by exact hu) _
    · split
      · split <;> exact QueueKept.retire (by exact hu) _
      · exact hu
  unfold State.fire
  dsimp only
  split <;> split
  · exact QueueKept.retire (by exact sent) _
  · exact QueueKept.retire sent _
  · exact advance _ (by exact sent) _
  · exact advance _ sent _

/-- A list's taking of a message leaves the queue of a line alone when no count event that it fires at is in that queue. -/
theorem QueueKept.takeListMsg {n : LineId} {g : LineConfig} {q : List LineMsg} {s : State} (h : QueueKept n g q s) (a : AxisId)
    (m : ListMsg) (hm : ∀ c, m = .count c → LineMsg.count c.serial ∉ q.tail) : QueueKept n g q (s.takeListMsg a m) := by
  cases m with
  | freeze => exact h
  | unfreeze => exact h
  | count c =>
    have fold (k : AxisKind) (xs : List Armed) : ∀ u : State, QueueKept n g q u →
        QueueKept n g q (xs.foldl (State.fireArmed a k c) u) := by
      induction xs with
      | nil => exact fun u hu => hu
      | cons x xs ih => exact fun u hu => ih _ (QueueKept.fire (by exact hu) a k x.entry _ _ true (hm c rfl))
    unfold State.takeListMsg State.crossing
    dsimp only
    split
    · exact h
    · split
      · exact fold _ _ _ h
      · exact h

/-- The list has taken every count event before the one the line is to take: it takes nothing more. -/
theorem State.listBefore_none (s : State) (n : LineId) (k : Nat) (rest : List LineMsg) (hq : (s.line n).fromAxis = .count k :: rest)
    (h : ∀ a d, (s.line n).config = .compare a d → ∀ c, ListMsg.count c ∈ (s.clist a).inbox →
      (s.line n).precedes c.serial k = false) : s.listBefore n = s := by
  unfold State.listBefore
  rw [hq]
  split
  · next a d k' rest' hc e =>
    cases e
    have : throughLast (ListMsg.precedes (s.line n) k) (s.clist a).inbox = 0 := (throughLast_eq_zero _ _).2 fun m hm => by
      cases m with
      | count c => exact h a d hc c hm
      | freeze => rfl
      | unfreeze => rfl
    rw [this, State.takeListMsgs]
  · rfl

/-- The list has a count event before the one the line is to take: it takes the first message of its inbox, and then goes on. -/
theorem State.listBefore_cons (s : State) (n : LineId) (k : Nat) (rest : List LineMsg) (hq : (s.line n).fromAxis = .count k :: rest)
    (a : AxisId) (d : Drive) (hc : (s.line n).config = .compare a d) (m : ListMsg) (ms : List ListMsg)
    (hi : (s.clist a).inbox = m :: ms) (hex : ∃ c, ListMsg.count c ∈ m :: ms ∧ (s.line n).precedes c.serial k = true)
    (hm : ∀ c, m = .count c → LineMsg.count c.serial ∉ rest) (hf : ∀ f ∈ (s.line n).fromList, LineMsg.count f.serial ∉ rest) :
    s.listBefore n = (s.takeListMsg a m).listBefore n ∧ ((s.takeListMsg a m).line n).fromAxis = .count k :: rest := by
  have kept : QueueKept n (.compare a d) (.count k :: rest) (s.takeListMsg a m) :=
    QueueKept.takeListMsg ⟨hc, hq, hf⟩ a m hm
  refine ⟨?_, kept.2.1⟩
  obtain ⟨c, hcm, hcp⟩ := hex
  have same : ListMsg.precedes ((s.takeListMsg a m).line n) k = ListMsg.precedes (s.line n) k := by
    funext x
    cases x with
    | count c => simp only [ListMsg.precedes, Line.precedes, kept.2.1, hq]
    | freeze => rfl
    | unfreeze => rfl
  unfold State.listBefore
  rw [hc, hq, kept.1, kept.2.1]
  dsimp only
  rw [same, State.takeListMsg_inbox, if_pos rfl, hi, List.tail_cons, throughLast_cons _ _ _ ⟨_, hcm, hcp⟩, State.takeListMsgs, hi]

/-- What the list takes before a line's count event leaves alone. -/
theorem State.listBefore_frame (s : State) (n : LineId) :
    s.listBefore n = { s with
      lists := (s.listBefore n).lists, pool := (s.listBefore n).pool, lines := (s.listBefore n).lines
      procs := (s.listBefore n).procs, cqReq := (s.listBefore n).cqReq } := by
  unfold State.listBefore
  split
  · exact State.takeListMsgs_frame ..
  · rfl

/-- What every message taken keeps, the list's taking before a line's count event keeps. -/
theorem State.listBefore_keeps (P : State → Prop) (h : ∀ s a m rest, P s → (s.clist a).inbox = m :: rest → P (s.takeListMsg a m))
    (s : State) (n : LineId) (hs : P s) : P (s.listBefore n) := by
  unfold State.listBefore
  split
  · exact State.takeListMsgs_keeps P _ (fun s m rest => h s _ m rest) _ s hs
  · exact hs

/-- The line takes the count event that waits first after the actions before it. -/
theorem Line.takeCount_eq (l : Line) (k : Nat) (rest : List LineMsg) (hq : l.fromAxis = .count k :: rest) :
    l.takeCount = (l.actBefore k).takeAxisMsg (.count k) := by unfold Line.takeCount; rw [hq]

/-- A line that takes a count event before which no action is to be taken takes it alone. -/
theorem Line.takeCount_none (l : Line) (k : Nat) (rest : List LineMsg) (hq : l.fromAxis = .count k :: rest)
    (h : ∀ f fs, l.fromList = f :: fs → l.precedes f.serial k = false) : l.takeCount = l.takeAxisMsg (.count k) := by
  rw [Line.takeCount_eq l k rest hq, Line.actBefore_none l k h]

/-- A line that takes a count event before which its oldest action is to be taken takes that action first, and then goes on. -/
theorem Line.takeCount_cons (l : Line) (k : Nat) (rest : List LineMsg) (hq : l.fromAxis = .count k :: rest) (f : FireAction)
    (fs : List FireAction) (hf : l.fromList = f :: fs) (h : l.precedes f.serial k = true) :
    l.takeCount = ({ l with fromList := fs }.act f).takeCount := by
  have : ({ l with fromList := fs }.act f).fromAxis = .count k :: rest := by rw [Line.act_frame]; exact hq
  rw [Line.takeCount_eq l k rest hq, Line.takeCount_eq _ k rest this, Line.actBefore_cons l k f fs hf h]

/-! ## What is taken before a tick (log 40) -/

/-- What each of the takings keeps, all of them keep. -/
theorem State.takeDue_keeps (P : State → Prop) (prescale : ∀ s a, P s → P (s.prescaleTick a))
    (counts : ∀ s a m rest, P s → (s.clist a).inbox = m :: rest → P (s.takeListMsg a m))
    (ends : ∀ s n, P s → P (s.endTickPulse n)) (times : ∀ s p, P s → P (s.timeOut p))
    (check : ∀ s fb, P s → P (s.takeCheck fb)) (s : State) (hs : P s) : P s.takeDue := by
  have fold {α : Type} (f : State → α → State) (h : ∀ s x, P s → P (f s x)) (l : List α) : ∀ s, P s → P (l.foldl f s) := by
    induction l with
    | nil => exact fun s hs => hs
    | cons x l ih => exact fun s hs => ih _ (h s x hs)
  have prescaled := fold State.prescaleTick prescale (List.finRange 4) s hs
  have crossed := fold State.takeCounts (fun s a => State.takeCounts_keeps P a (fun s m rest => counts s a m rest) s)
    (List.finRange 4) _ prescaled
  have ended := fold State.endTickPulse ends (List.finRange 16) _ crossed
  have timed := fold State.timeOut times (List.finRange 9) _ ended
  unfold State.takeDue State.timeOutAll
  exact check _ _ timed

/-- An Axis Unit to which no tick is offered takes none (R18). -/
theorem State.prescaleTick_none (s : State) (a : AxisId) (h : (s.axis a).prescales = true → (s.axis a).tick = false) :
    s.prescaleTick a = s := by
  have : (s.axis a).prescale = none := by
    unfold Axis.prescales at h
    unfold Axis.prescale
    split
    · next g hg =>
      rw [hg] at h
      dsimp only at h
      split
      · next p d hd =>
        rw [hd] at h
        rw [if_neg fun e => by rw [h e.1] at e; cases e.2]
      · rfl
    · rfl
  simp [State.prescaleTick, this]

/-- A line with no end timestamp that a tick offered to it has reached takes none (R112). -/
theorem State.endTickPulse_none (s : State) (n : LineId)
    (h : ∀ e t, (s.line n).state = .pulsing e → e.tick = some t → t ≤ s.ts → (s.line n).tick = false) : s.endTickPulse n = s := by
  unfold State.endTickPulse
  split
  · next e he =>
    split
    · next t ht => rw [if_neg fun c => by rw [h e t he ht c.2] at c; cases c.1]
    · rfl
  · rfl

/-- A check deadline that no tick has reached is not taken (R124). -/
theorem State.takeCheck_none (s : State) (fb : Vector Bool 16)
    (h : s.monitor.enable = true → s.monitor.deadline ≠ none → s.monitor.expired = false) : s.takeCheck fb = s := by
  have : s.checkDue = none := by
    unfold State.checkDue
    split
    · next c =>
      rw [Bool.and_eq_true] at c
      by_contra hd
      rw [h c.1 hd] at c
      cases c.2
    · rfl
  simp [State.takeCheck, this]

end Sys2Proof.Machine
end

