-- ==== Sys2Proof/WellFormed.lean ====
section
/-! DEFINITION. Which commands the rows of the table can spell. -/

namespace Sys2Proof

/-- The pair of a command that only a work pair's record processor takes part in, if it is one (R168). -/
def Instr.workPair : Instr → Option PairId
  | .lineHostWrite p => some p
  | .allocation p => some p
  | .insertion p => some p
  | .append p => some p
  | .listCancel _ p => some p
  | .channelCancel _ p => some p
  | .barrierReleaseNotice p => some p
  | .barrierTimeout p => some p
  | _ => none

/-- A command is well formed when its record, if any, has its row's kind code (R192), a BAD_KIND record has a code
that is not NOP (R169 takes NOP on either ring), and a work pair command names a work pair. -/
def Instr.wellFormed (i : Instr) : Bool :=
  (match i.record with
    | some (k, r) => r.byte 0 == k.code
    | none => true) &&
  (match i with
    | .badKind r => r.byte 0 != Kind.nop.code
    | _ => true) &&
  (match i.workPair with
    | some p => p != 0
    | none => true)

end Sys2Proof
end

