-- ==== Sys2Proof/Tests/Slice0.lean ====
section
/-! SUPPORT. Tests: the ill-formed terms that WellFormed refuses, record layouts, the worked examples of spec/ one event at a time, and
for each obligation with hypotheses a state and operands that meet them. -/

namespace Sys2Proof.Tests

open Sys2Proof Sys2Proof.Machine

set_option maxRecDepth 100000

/-! ## Small states -/

/-- A record with these bytes, and 0 elsewhere. -/
def rec (l : List (Nat × Byte)) : Record := Vector.ofFn fun i =>
  match l.find? fun x => x.1 == i.val with
  | some x => x.2
  | none => 0

/-- The state that a command leaves. -/
def after (c : Instr) (s : State) : State :=
  match exec c s with
  | .next t => t
  | _ => s

/-- A read is outstanding for this pair. -/
def reading (p : PairId) (s : State) : State := { s with engine := some ⟨p, 0⟩ }

/-- The processor of a pair has this phase, for a record of kind 1 and cookie 7. -/
def busy (p : PairId) (ph : Phase) (s : State) : State := { s with procs := s.procs.set p (.busy 1 7 ph) }

/-- A LINEAR axis on QUAD X4, late window 30. -/
def linear : AxisConfig := ⟨.quad .x4 false, .linear, .none, .either, 0, 0, 0, 30⟩

/-- A ROTARY axis of modulus `m` with PRESET_EVERY, preset 0, spacing `m` and tolerance 10. -/
def rotary (m : Nat) : AxisConfig := ⟨.quad .x4 false, .rotary m, .presetEvery, .either, 0, m, 10, 50⟩

/-- An axis with this configuration in this state. -/
def axisIn (g : AxisConfig) (st : AxisState) (pos : Int) (serial : Nat) : Axis :=
  { blankAxis false false false with config := some g, state := st, position := pos, serial := serial, lastDir := some .fwd }

/-- Axis Unit `a` is this one. -/
def withAxis (a : AxisId) (x : Axis) (s : State) : State := { s with axes := s.axes.set a x }

/-- Compare list `a` is this one. -/
def withList (a : AxisId) (x : CList) (s : State) : State := { s with lists := s.lists.set a x }

/-- Line `n` is this one. -/
def withLine (n : LineId) (x : Line) (s : State) : State := { s with lines := s.lines.set n x }

/-- Channel `c` is this one. -/
def withChan (c : ChanId) (x : Channel) (s : State) : State := { s with channels := s.channels.set c x }

/-- Slot `m` is this one. -/
def withSlot (m : SlotId) (x : Slot) (s : State) : State := { s with slots := s.slots.set m x }

/-- Pair `p` is this one. -/
def withPair (p : PairId) (x : Pair) (s : State) : State := { s with pairs := s.pairs.set p x }

/-- The fields of a line with this retrigger setting. -/
def drive (x : Retrigger) : Drive := ⟨.normal, false, x, none⟩

/-- A COMPARE line bound to an axis, in a state. -/
def compareLine (a : AxisId) (x : Retrigger) (st : LineState) : Line :=
  { blankLine false with config := .compare a (drive x), state := st }

/-- A HOST line in a state. -/
def hostLine (st : LineState) : Line := { blankLine false with config := .host (drive .restart), state := st }

/-- An ACTIVE pair of sizes 16 and 16. -/
def activePair : Pair := { absentPair with state := .active, sqSize := 16, cqSize := 16 }

/-- An entry of a pair with a tag, a qualifier and an action on a line of axis `a`. -/
def entry (p : PairId) (a : AxisId) (tag : W32) (q : Qualifier) (act : Action) (n : LineId) (left : Nat) (pitch : Option Int) : Entry :=
  ⟨tag, 0, p, a, q, act, n, left, pitch, 0, true, .wait⟩

/-- A channel on CIN3 for axis 1, in a state, with this window. -/
def chanIn (st : ChanState) (w : Option (Int × Int)) : Channel :=
  { blankChannel false with config := some ⟨3, .rising, 1, w, 500, true⟩, state := st }

/-! ## WellFormed refuses -/

theorem test_wellFormed_refuses_another_kind : (Instr.axisStart (rec [(0, 0x46)])).wellFormed = false := by decide

theorem test_wellFormed_refuses_nop_as_badKind : (Instr.badKind (rec [])).wellFormed = false := by decide

theorem test_wellFormed_refuses_pair0_at_work : (Instr.insertion 0).wellFormed = false := by decide

theorem test_wellFormed_accepts :
    (Instr.axisStart (rec [(0, 0x45)])).wellFormed = true ∧ (Instr.badKind (rec [(0, 0x06)])).wellFormed = true ∧
      (Instr.insertion 8).wellFormed = true := by decide

/-! ## Record layouts (R191 to R194) -/

/-- R191, R192: kind code 0x01 at byte 0, REPORT at bit 0 of byte 1, the cookie at bytes 4 to 7, and the fields of ARM. -/
theorem test_arm_fields :
    let r := rec [(0, 0x01), (1, 0x01), (4, 0x78), (5, 0x56), (6, 0x34), (7, 0x12), (8, 9), (12, 0xFE), (13, 0xFF), (14, 0xFF),
      (15, 0xFF), (16, 0xE8), (17, 3), (24, 2), (26, 5), (27, 3), (28, 15), (29, 2), (30, 1), (32, 2)]
    r.cookie = 0x12345678 ∧ r.s32 12 = -2 ∧ badField .arm r = none ∧
      r.entry 4 (r.axisAt 27) = ⟨9, 5, 4, 3, .rev, .clear, 15, 2, some 1000, 0, true, .refuse⟩ := by decide

/-- R192: a work kind on the admin ring, and an admin kind on a work ring, is BAD_KIND there. -/
theorem test_kinds_of_the_rings :
    Kind.onRing 0 0x01 = none ∧ Kind.onRing 1 0x01 = some .arm ∧ Kind.onRing 0 0x51 = some .cancelAxis ∧ Kind.onRing 1 0x51 = none ∧
      Kind.onRing 0 0 = some .nop ∧ Kind.onRing 8 0 = some .nop ∧ Kind.onRing 0 0x52 = none ∧ Kind.onRing 1 0x06 = none := by decide

/-- R171: a reserved field is looked at before any range. -/
theorem test_reserved_before_range :
    badField .axisStart (rec [(0, 0x45), (8, 4), (63, 1)]) = some 5 ∧ badField .axisStart (rec [(0, 0x45), (8, 4)]) = some 4 ∧
      badField .axisStart (rec [(0, 0x45), (8, 3)]) = none := by decide

/-- R194: an ACK of kind 0x01 with cookie 0x01020304, status PASSED, lost_before 5 and stamp 1000. -/
theorem test_ack_bytes : (CqRequest.ack ⟨0x01, 0x01020304, .passed, 0, 1000⟩).bytes 5 =
    [0x80, 0x01, 5, 0, 4, 3, 2, 1, 2, 0, 0, 0, 0, 0, 0, 0, 0, 0, 0, 0, 0, 0, 0, 0, 0xE8, 3, 0, 0, 0, 0, 0, 0] := by decide

/-- R194: a FIRE at position -1, direction FWD, final. -/
theorem test_fire_bytes : (CqRequest.fire ⟨2, 7, -1, 3, .fwd, true, 258, 1⟩).bytes 0 =
    [0x81, 2, 0, 0, 7, 0, 0, 0, 255, 255, 255, 255, 3, 0, 1, 1, 2, 1, 0, 0, 0, 0, 0, 0, 1, 0, 0, 0, 0, 0, 0, 0] := by decide

/-! ## The worked examples of spec/ -/

/-- 02, "index spacing on a rotary encoder", last row: 3952 counts since the index set the flag, and the preset corrects. -/
theorem test_index_spacing :
    let t := after (.indexEdge 2) (withAxis 2
      { axisIn (rotary 4000) .running 3952 0 with prevIndex := true, net := 3952 } State.reset)
    (t.axis 2).position = 0 ∧ (t.axis 2).spacingError = true ∧ (t.axis 2).net = 0 ∧
      t.nqReq = [.indexCorrected 2 3952 0 0 0] := by decide

/-- 02, R21: a forward count at M-1 gives 0, and a reverse count at 0 gives M-1. -/
theorem test_rotary_wraps :
    ((after (.countEvent 0 true false) (withAxis 0 (axisIn (rotary 2000) .running 1999 10009) State.reset)).axis 0).position = 0 ∧
      ((after (.countEvent 0 false true) (withAxis 0 (axisIn (rotary 2000) .running 0 1) State.reset)).axis 0).position = 1999 := by
  decide

/-- The state of 04's example "one count event, four entries". -/
def fourEntries : State :=
  withList 3 { blankList with
    entries := [⟨entry 4 3 10 .fwd .set 2 0 none, 5000, 311⟩, ⟨entry 4 3 11 .rev .clear 2 0 none, 5000, 312⟩,
      ⟨entry 4 3 12 .either (.pulse 200 .counts) 5 3 (some 1000), 5000, 315⟩,
      ⟨entry 4 3 13 .fwd .toggle 2 5 (some 250), 5000, 320⟩] ++
      (List.range 2).map (fun i => ⟨entry 4 3 20 .fwd .set 2 0 none, 5250, i⟩) ++
      (List.range 8).map fun i => ⟨entry 4 3 21 .fwd .set 2 0 none, 6000, i⟩
    inbox := [.count ⟨.fwd, 5000, 81000, 7400125⟩] }
    (withLine 2 (compareLine 3 .restart .inactive) (withAxis 3 (axisIn linear .running 5000 81000) State.reset))

/-- 04, "one count event, four entries": the reports in order, SET and then TOGGLE at OUT2, and what stays at 5000 and 5250. -/
theorem test_four_entries :
    let t := after (.listCountEvent 3) fourEntries
    t.requests 4 = [.fire ⟨3, 10, 5000, 0, .fwd, true, 81000, 7400125⟩, .fire ⟨3, 12, 5000, 0, .fwd, false, 81000, 7400125⟩,
      .retire ⟨3, 12, 6000, 1, .endCrowded, 81000, 7400125⟩, .fire ⟨3, 13, 5000, 0, .fwd, false, 81000, 7400125⟩] ∧
    ((t.line 2).state = .active ∧ ((after (.lineFireAction 2) t).line 2).state = .inactive) ∧ (t.clist 3).countAt 5000 = 1 ∧
    (t.clist 3).countAt 5250 = 3 ∧ (t.clist 3).countAt 6000 = 8 := by decide

/-- The state of 04's example "the late test on a rotary axis", with an insertion at a position waiting. -/
def lateRotary (pos : Int) (q : Qualifier) (late : LatePolicy) : State :=
  busy 2 (.inserting { entry 2 1 7 q .set 0 2 (some 20) with late := late } pos)
    (withLine 0 (compareLine 1 .restart .inactive) (withAxis 1 (axisIn (rotary 3600) .running 10 52310) State.reset))

/-- 04, "the late test on a rotary axis", rows a to e: the acks. -/
theorem test_late_rotary :
    ((after (.insertion 2) (lateRotary 3590 .fwd .fire)).requests 2 = [.ack ⟨1, 7, .lateFired, 0, 0⟩]) ∧
    ((after (.insertion 2) (lateRotary 10 .either .refuse)).requests 2 = [.ack ⟨1, 7, .passed, 0, 0⟩]) ∧
    ((after (.insertion 2) (lateRotary 11 .fwd .refuse)).requests 2 = [.ack ⟨1, 7, .ok, 0, 0⟩]) ∧
    ((after (.insertion 2) (lateRotary 3550 .fwd .refuse)).requests 2 = [.ack ⟨1, 7, .ok, 0, 0⟩]) ∧
    ((after (.insertion 2) (lateRotary 3590 .rev .wait)).requests 2 = [.ack ⟨1, 7, .ok, 0, 0⟩]) := by decide

/-- 04, the same: entry a is armed at 10 after its late fire, with repeat remaining 1. -/
theorem test_late_fire_advances :
    (((after (.insertion 2) (lateRotary 3590 .fwd .fire)).clist 1).entries.map fun x => (x.pos, x.entry.repeatLeft)) = [(10, 1)] := by
  decide

/-- 06, "one compare line through pulses and a hold": EXTEND keeps the later end and adds an end in the other unit. -/
theorem test_extend :
    let at9 (h : PulseEnds) (f : FireAction) : State :=
      withLine 9 { compareLine 2 .extend (.pulsing h) with fromList := [f] } State.reset
    ((after (.lineFireAction 9) (at9 ⟨some 541, none⟩ ⟨.pulse 30 .counts, 520, 9200⟩)).line 9).state = .pulsing ⟨some 550, none⟩ ∧
    ((after (.lineFireAction 9) (at9 ⟨some 550, none⟩ ⟨.pulse 100 .ticks, 530, 9300⟩)).line 9).state =
      .pulsing ⟨some 550, some 9400⟩ := by decide

/-- 06, the same: the tick at 9400 removes the time end, and the count event with serial 550 ends the pulse. -/
theorem test_pulse_ends :
    let at9 (h : PulseEnds) (m : List LineMsg) : State :=
      { withLine 9 { compareLine 2 .extend (.pulsing h) with tick := true, fromAxis := m } State.reset with ts := 9400 }
    ((after (.pulseEndTick 9) (at9 ⟨some 550, some 9400⟩ [])).line 9).state = .pulsing ⟨some 550, none⟩ ∧
    ((after (.pulseEndCount 9) (at9 ⟨some 550, none⟩ [.count 550])).line 9).state = .inactive := by decide

/-- 07 and 11, "an overspeed trip": the second present sample trips a slot with N = 2. -/
def tripping : State :=
  { withSlot 2 ⟨some ⟨.overspeed 2 200, 2, .hold⟩, .pending, 1, 0, some ⟨true, 230⟩, false⟩
      (withAxis 2 { axisIn (rotary 10000) .running 3790 9 with moved := 260 } State.reset) with
    ts := 10002, monitor := ⟨true, 10, some 10000, true⟩ }

/-- 11, "an overspeed trip through release and resume": MONITOR_TRIPPED (M2, sample 260, run 2) with the timestamp at which the
check is taken (R3), and the hold request TRIP; the next deadline keeps the spacing from the old one (R124). -/
theorem test_overspeed_trip :
    let t := after (.checkEvent (Vector.replicate 16 false)) tripping
    (t.slot 2).state = .tripped ∧ (t.axis 2).moved = 0 ∧ (t.axis 2).holdReqs = [.trip] ∧
      t.nqReq = [.monitorTripped 2 ⟨.overspeed 2 200, 2, .hold⟩ 260 2 10002] ∧ t.monitor.deadline = some 20000 := by decide

/-- A pair with a submission posted. -/
def posted : Pair := { activePair with sqPost := 1 }

/-- 08, "three pairs at the arbiter": requesters 2, 3 and 6, last served 3: the first after 3 is 6. -/
def arbiter : State :=
  withPair 2 posted (withPair 3 posted (withPair 6 posted { State.reset with enable := true, lastServed := 3 }))

/-- 08, the same; and pair 0 is served first whenever it requests. -/
theorem test_arbiter :
    ((after .fetchGrant arbiter).engine.map fun e => e.pair) = some 6 ∧
      ((after .fetchGrant (withPair 0 posted arbiter)).engine.map fun e => e.pair) = some 0 := by decide

/-- 11, "a saturated completion ring": fire 21 goes to slot 15 with lost_before 5, and the write tail wraps to 0. -/
theorem test_saturated_ring :
    let f : CqRequest := .fire ⟨3, 9, 3000, 20, .fwd, false, 0, 0⟩
    let s := withPair 3 { activePair with cqWrite := 15, cqPub := 15, cqDone := 10, reserved := true, pendLost := 5, totLost := 5 }
      { State.reset with cqReq := State.reset.cqReq.set 3 [f] }
    let t := after (.postCompletion 3) s
    t.writeQ = [.record (.cq 3) 15 0 (f.bytes 5)] ∧ (t.pair 3).cqWrite = 0 ∧ (t.pair 3).pendLost = 0 ∧ (t.pair 3).totLost = 5 ∧
      (t.pair 3).free = 8 := by decide

/-! ## Witnesses: states and operands that meet the hypotheses of the obligations -/

theorem witness_StepRunsTheFrontCommand :
    ({ State.reset with pending := [.tick] } : State).pending = .tick :: [] ∧ State.reset.pending = [] := by decide

theorem witness_CommandsLeaveTheQueueAlone : ∃ t, exec .tick { State.reset with pending := [.tick] } = .next t := ⟨_, rfl⟩

/-- A BARRIER in progress at pair 1, with one entry to wait for, a deadline that has expired and the notice of its release. -/
def waits : BarrierWait := ⟨.all, 1, some 100, true, [(0, 5)]⟩

theorem witness_TickAdvancesTheTimestamp :
    State.reset.resetting ≠ some .full ∧ ({ State.reset with resetting := some .full } : State).resetting = some .full ∧
      State.reset.NothingDue := by
  have lines : ∀ n, (State.reset.line n).state = .undriven := by decide
  have procs : ∀ p, State.reset.proc p = .idle := by decide
  have lists : ∀ a, (State.reset.clist a).inbox = [] := by decide
  refine ⟨by decide, by decide, by decide, fun a k h => ?_, fun n e t h => ?_, fun p kd ck b h => ?_, by decide⟩
  · rw [lists a] at h; cases h
  · rw [lines n] at h; cases h
  · rw [procs p] at h; cases h

theorem witness_TimeNeverRunsBack :
    let s : State := { State.reset with ts := 2 ^ 64 - 1 }
    s.ts ≤ 2 ^ 64 - 1 ∧ (∃ t, exec .tick s = .next t) ∧ ∀ pins, Instr.tick ≠ .fullReset pins :=
  ⟨by decide, ⟨_, rfl⟩, by intro _ h; cases h⟩

theorem witness_ResetsClearThePart :
    State.reset.resetting = none ∧ (after (.softReset lowPins) State.reset).resetting = some .soft ∧
      (after .tick (after (.softReset lowPins) State.reset)).resetTick = true ∧
      (after (.fullReset lowPins) State.reset).resetting = some .full := by decide

/-- R2: the first stamp after a soft reset is larger than one before it. -/
theorem test_soft_reset_needs_a_tick :
    let s := after (.softReset lowPins) { State.reset with ts := 7 }
    (after .resetDone s).resetting = some .soft ∧ (after .resetDone (after .tick s)).resetting = none ∧
      (after .resetDone (after .tick s)).ts = 8 := by decide

theorem witness_RegisterWritesTakeEffectWhenReady :
    State.reset.resetting = none ∧ (after (.softReset lowPins) State.reset).resetting = some .soft ∧
      (Instr.enableWrite true).isWindowWrite = true ∧ (0x140 : BitVec 12).toNat = 0x100 + 8 * (8 : PairId).val ∧
      (0x240 : BitVec 12).toNat = 0x200 + 8 * (8 : PairId).val ∧
      ((0x148 : BitVec 12) ∉ ([0x010, 0x020, 0x024, 0x028, 0x02C, 0x030, 0x034, 0x038, 0x040, 0x280] : List (BitVec 12)) ∧
        ∀ p : PairId, (0x148 : BitVec 12).toNat ≠ 0x100 + 8 * p.val ∧ (0x148 : BitVec 12).toNat ≠ 0x200 + 8 * p.val) ∧
      (0x034 : BitVec 12) &&& 0xFF8 ∉ ([0x000, 0x008, 0x018, 0x038] : List (BitVec 12)) ∧
      ((0x284 : BitVec 12) &&& 0xFF8 = 0x280 ∧ (0x28C : BitVec 12) &&& 0xFF8 ∉ ([0x000, 0x008, 0x010, 0x018, 0x020, 0x028, 0x030, 0x038,
        0x040, 0x048, 0x280] : List (BitVec 12))) := by decide

/-- R196: ADMIN_SIZES reads 16 and 16 after a reset, and STATUS reads READY 0 and RESET_CAUSE SOFT while a soft reset lasts. -/
theorem test_window_reads :
    State.reset.windowRead 0x038 = 0x00100010 ∧ State.reset.windowRead 0x018 = 1 ∧
      (after (.softReset lowPins) State.reset).windowRead 0x018 = 0x10000 := by decide

/-- R142, R196: the upper half of STATUS_BLOCK_BASE is read and written at its own offset, and the high half of STATUS reads 0. -/
theorem test_upper_half :
    let s := after (.registerWrite 0x024 0x12345678) { State.reset with sbBase := 0x9ABCDE00 }
    s.sbBase = 0x123456789ABCDE00 ∧ s.windowRead 0x024 = 0x12345678 ∧ s.windowRead 0x020 = 0x123456789ABCDE00 ∧
      s.windowRead 0x00C = 0x08000008 ∧ s.windowRead 0x01C = 0 := by decide

/-- R143, R196: a write at the offset of IRQ_MASK is stored, one at STATUS is not, and CONTROL with SOFT_RESET starts a reset. -/
theorem test_write_by_offset :
    (after (.registerWrite 0x040 0xFFFF) State.reset).irqMask = 0x7FF ∧ after (.registerWrite 0x018 1) State.reset = State.reset ∧
      (after (.registerWrite 0x010 3) State.reset).resetting = some .soft := by decide

theorem witness_AdminRegistersTakeWrites :
    (State.reset.resetting = none ∧ State.reset.enable = false ∧ State.reset.granted 0 = false ∧ State.reset.proc 0 = .idle ∧
      (∀ p : PairId, p ≠ 0 → (State.reset.pair p).state = .absent) ∧ State.reset.nq.state = .unset) ∧
    ((1 : PairId) ≠ 0 ∧ ((withPair 1 activePair State.reset).pair 1).state ≠ .absent) ∧
    ({ State.reset with nq := ⟨.active, 0, 16, 0, 0, 0, 0, 0⟩ } : State).nq.state ≠ .unset ∧
    (ringSize (0x10000010 % 2 ^ 16) = true ∧ ringSize (0x10000010 / 2 ^ 16) = true) ∧
    (ringSize (0x00100008 % 2 ^ 16) = false ∧ ringSize (0x20000010 / 2 ^ 16) = false) ∧
    ({ State.reset with enable := true } : State).enable = true ∧ (reading 0 State.reset).granted 0 = true ∧
    (busy 0 .acked State.reset).proc 0 ≠ .idle := by decide

theorem witness_HostIndexWrites :
    let s := withPair 1 { activePair with cqDone := 10, cqPub := 1 } State.reset
    let n : State := { State.reset with nq := ⟨.active, 0, 16, 1, 1, 10, 0, 0⟩ }
    s.resetting = none ∧ ((s.pair 1).state = .active ∧ (s.pair 1).cause = none) ∧
    ((withPair 1 { activePair with state := .draining } State.reset).pair 1).state = .draining ∧
    ((withPair 1 { activePair with state := .error } State.reset).pair 1).state = .error ∧ (s.pair 2).state = .absent ∧
    ((15 : W32).toNat < (s.pair 0).sqSize ∧ ¬(16 : W32).toNat < (s.pair 0).sqSize) ∧
    ((1 : W32).toNat < 16 ∧ ahead 16 10 (1 : W32).toNat ≤ ahead 16 10 1) ∧
    ((10 : W32).toNat < 16 ∧ ahead 16 10 (10 : W32).toNat ≤ ahead 16 10 1) ∧
    (¬ahead 16 10 (2 : W32).toNat ≤ ahead 16 10 1 ∧ ¬(16 : W32).toNat < 16) ∧ (s.nq.state = .unset ∧ n.nq.state = .active) ∧
    ({ n with nq := { n.nq with state := .error } } : State).nq.state = .error := by decide

theorem witness_ErrorsStopThePair :
    let s (st : PairState) (c : Option ErrorCause) : State := withPair 1 { activePair with state := st, cause := c } State.reset
    (((s .active none).pair 1).state = .active ∧ ((s .active none).pair 1).cause = none) ∧
    (((s .draining none).pair 1).state = .draining ∧ ((s .draining none).pair 1).cause = none) ∧
    ((s .error (some .doneRange)).pair 1).cause ≠ none ∧ (1 : PairId) ≠ 0 ∧ State.reset.fault = none ∧
    ({ State.reset with fault := some .postRange } : State).fault = some .postRange ∧
    ((State.reset.proc 0).phase = none ∧
      (busy 0 (.querying 5) State.reset).proc 0 = .busy 1 7 (.querying 5) ∧
      (QueuedWrite.snapshot 64 []) ∈ ({ State.reset with writeQ := [.snapshot 64 []] } : State).writeQ ∧
      (QueuedWrite.snapshot 64 []).isSnapshot = true ∧ (QueuedWrite.head 0 1).isSnapshot = false) ∧
    (.tail (.cq 1) 1 true) ∈ (State.setCause
      { s .active none with writeQ := [.record (.cq 1) 0 1 [], .tail (.cq 1) 1 true] } 1 .doneRange).writeQ := by decide

theorem witness_FaultLastsUntilReset :
    let s : State := { State.reset with fault := some .postRange }
    s.fault = some .postRange ∧ (Instr.sqPostWrite 0 16).isReset = false ∧ ∃ t, exec (.sqPostWrite 0 16) s = .next t :=
  ⟨by decide, by decide, ⟨_, rfl⟩⟩

theorem witness_InterruptFollowsTheIndices :
    State.reset.RingsInOrder ∧ (State.reset.pair 8).state = .absent ∧ State.reset.nq.state = .unset ∧
    (let s := withPair 1 { activePair with state := .error, cqDone := 10, cqPub := 1 } State.reset;
      s.resetting = none ∧ (s.pair 1).state = .error ∧ (1 : W32).toNat < (s.pair 1).cqSize ∧
        ahead 16 10 (1 : W32).toNat ≤ ahead 16 10 1) := by
  refine ⟨?_, by decide, by decide, by decide⟩
  unfold State.RingsInOrder RingIndices
  decide

theorem witness_CountEventMovesTheAxis :
    (let s := withAxis 0 (axisIn linear .running (2 ^ 31 - 2) 5) State.reset;
      (s.axis 0).config = some linear ∧ (s.axis 0).sample true false = .count .fwd ∧
        linear.kind.moved (s.axis 0).position .fwd = some (2 ^ 31 - 1) ∧ linear.kind = .linear) ∧
    (let s := withAxis 0 (axisIn (rotary 2000) .running 1999 5) State.reset;
      (s.axis 0).config = some (rotary 2000) ∧ (s.axis 0).sample true false = .count .fwd ∧
        (rotary 2000).kind.moved (s.axis 0).position .fwd = some 0 ∧ (rotary 2000).kind = .rotary 2000 ∧
        0 ≤ (s.axis 0).position ∧ (s.axis 0).position < 2000) := by decide

theorem witness_OverflowHoldsTheAxis :
    let s (st : AxisState) (c : Causes) : State := withAxis 0 { axisIn linear st (2 ^ 31 - 1) 5 with causes := c } State.reset
    let ok (s : State) : Prop := (s.axis 0).config = some linear ∧ (s.axis 0).sample true false = .count .fwd ∧
      linear.kind.moved (s.axis 0).position .fwd = none
    ok (s .running noCauses) ∧ ((s .running noCauses).axis 0).state = .running ∧
      ok (s (.held .running) ⟨true, false, false, false⟩) ∧ ((s (.held .running) noCauses).axis 0).state = .held .running ∧
      ((s (.held .running) ⟨true, false, false, true⟩).axis 0).causes.overflow = true ∧
      (-(2 ^ 31) ≤ (2 ^ 31 - 1 : Int) ∧ -(2 ^ 31) ≤ (-(2 ^ 31) : Int)) := by decide

theorem witness_SamplesThatDoNotCount :
    let s := withAxis 0 (axisIn linear .running 0 5) State.reset
    (s.axis 0).sample true true = .illegal ∧ (s.axis 0).sample false false = .reference ∧ (State.reset.axis 0).counting = false ∧
      (true ≠ false) ∧ ((s.axis 0).config = some linear ∧ (s.axis 0).counting = true) := by decide

/-- A RUNNING axis on TIMEBASE with prescale 2, with one tick offered. -/
def ticking (prescaler : Nat) : State :=
  withAxis 0 { axisIn { linear with source := .timebase 2 .fwd } .running 5 5 with prescaler := prescaler, tick := true } State.reset

theorem witness_PrescalerDividesTheTicks :
    let g : AxisConfig := { linear with source := .timebase 2 .fwd }
    ((ticking 0).axis 0).config = some g ∧ g.source = .timebase 2 .fwd ∧ ((ticking 0).axis 0).counting = true ∧
      ((ticking 0).axis 0).tick = true ∧ ((ticking 0).axis 0).prescaler + 1 < 2 ∧ 2 ≤ ((ticking 1).axis 0).prescaler + 1 ∧
      g.kind.moved ((ticking 1).axis 0).position .fwd = some 6 := by decide

theorem witness_IndexEventChecksAndPresets :
    let s (m : IndexMode) (home : Bool) : State :=
      withAxis 0 { axisIn { rotary 4000 with indexMode := m } .running 137 0 with homePending := home } State.reset
    (((s .none false).axis 0).config = some { rotary 4000 with indexMode := .none } ∧ ((s .none false).axis 0).state = .running ∧
      (rotary 4000).indexDir = .either ∧ ((s .none false).axis 0).lastDir ≠ none) ∧
    ((State.reset.axis 0).config = none ∧ ((withAxis 0 (axisIn linear .stopped 137 0) State.reset).axis 0).config = some linear ∧
      ((withAxis 0 (axisIn linear .stopped 137 0) State.reset).axis 0).state ≠ .running ∧
      ((withAxis 0 (axisIn linear .stopped 137 0) State.reset).axis 0).state ≠ .held .running) ∧
    (((s .homeOnce false).axis 0).homePending = false ∧ ((s .homeOnce true).axis 0).homePending = true) ∧
    (rotary 4000).indexMode = .presetEvery := by decide

theorem witness_HoldRequestsHoldTheAxis :
    let s (st : AxisState) : State := withAxis 0 { axisIn linear st 0 0 with holdReqs := [.trip] } State.reset
    ((s .running).axis 0).holdReqs = .trip :: [] ∧ (State.reset.axis 0).state = .unconfigured ∧
    ((s .running).axis 0).state = .running ∧ ((s .stopped).axis 0).state = .stopped ∧
    ((s (.held .running)).axis 0).state = .held .running ∧
    ((withLine 9 (compareLine 0 .restart .inactive) (s .running)).line 9).boundTo 0 = true := by decide

/-- A configured axis, a list with one entry, and a command waiting. -/
def oneEntry : State :=
  let e := entry 1 0 7 .fwd .set 2 0 none
  { withList 0 { blankList with entries := [⟨e, 5, 0⟩], nextArm := 1 }
      (withLine 2 { compareLine 0 .restart .inactive with refCount := 1 }
        (withPair 1 activePair (withAxis 0 (axisIn linear .running 4 5) State.reset))) with
    pool := ⟨2047, (Vector.replicate 9 0).set 1 1, (Vector.replicate 9 0).set 1 1⟩
    pending := [.countEvent 0 true false] }

theorem witness_PositionsStayInRange : oneEntry.PositionsInRange ∧ ∃ t, step oneEntry = .next t := by
  refine ⟨?_, ⟨_, rfl⟩⟩
  have h : ∀ a : AxisId, (oneEntry.axis a).config = none ∨
      ((oneEntry.axis a).config = some linear ∧ (oneEntry.axis a).position = 4) := by decide
  intro a g hg
  rcases h a with h | ⟨h, hp⟩
  · rw [h] at hg
    cases hg
  · rw [h] at hg
    cases hg
    rw [hp]
    exact ⟨⟨by decide, by decide⟩, ⟨by decide, by decide⟩⟩

theorem witness_HeldExactlyWithACause : oneEntry.CausesMatchHold ∧ ∃ t, step oneEntry = .next t :=
  ⟨by unfold State.CausesMatchHold; decide, ⟨_, rfl⟩⟩

theorem witness_AxisRequestsAtAConfiguredAxis :
    let s := reading 0 (withAxis 3 (axisIn linear .stopped 0 0) State.reset)
    let r (code : Byte) : Record := rec [(0, code), (8, 3)]
    (s.axis ((r 0x45).axisAt 8)).config = some linear ∧ s.Takes (r 0x45) .axisStart 0 ∧ s.Takes (r 0x46) .axisStop 0 ∧
      s.Takes (r 0x47) .axisHalt 0 ∧ s.Takes (r 0x49) .axisSetPosition 0 ∧ s.Takes (r 0x4A) .axisHome 0 := by
  unfold State.Takes
  decide

theorem witness_AxisResumeReleasesTheHold :
    let s (st : AxisState) : State := reading 0 (withAxis 3 (axisIn linear st 0 0) State.reset)
    let r := rec [(0, 0x48), (8, 3)]
    (s (.held .running)).Takes r .axisResume 0 ∧ ((s (.held .running)).axis (r.axisAt 8)).config = some linear ∧
      ((s .stopped).axis (r.axisAt 8)).isHeld = false ∧ ((s (.held .running)).axis (r.axisAt 8)).state = .held .running := by
  unfold State.Takes
  decide

theorem witness_UnconfiguredAxisIsRefused :
    let s := reading 0 State.reset
    let r (code : Byte) : Record := rec [(0, code), (8, 3)]
    (s.axis ((r 0x45).axisAt 8)).config = none ∧ s.Takes (r 0x45) .axisStart 0 ∧ s.Takes (r 0x46) .axisStop 0 ∧
      s.Takes (r 0x47) .axisHalt 0 ∧ s.Takes (r 0x48) .axisResume 0 ∧ s.Takes (r 0x49) .axisSetPosition 0 ∧
      s.Takes (r 0x4A) .axisHome 0 ∧ s.Takes (r 0x51) .cancelAxis 0 := by
  unfold State.Takes
  decide

theorem witness_AxisConfigStartsAfresh :
    let r := rec [(0, 0x44), (8, 0), (10, 2), (13, 3)]
    let s (st : AxisState) : State := reading 0 (withAxis 0 (axisIn linear st 0 0) State.reset)
    ((reading 0 State.reset).Takes r .axisConfig 0 ∧ (reading 0 State.reset).proc 0 = .idle ∧
      ((reading 0 State.reset).axis (r.axisAt 8)).state = .unconfigured ∧ (reading 0 State.reset).axisHasEntries 0 = false) ∧
    ((s .running).Takes r .axisConfig 0 ∧ ((s .running).axis (r.axisAt 8)).state = .running) ∧
    ((s (.held .stopped)).axis (r.axisAt 8)).isHeld = true ∧
    (((s .stopped).axis (r.axisAt 8)).state = .stopped ∧
      (withList 0 { blankList with entries := [⟨entry 1 0 7 .fwd .set 2 0 none, 5, 0⟩] } (s .stopped)).axisHasEntries 0 = true) := by
  unfold State.Takes
  decide

theorem witness_FrozenListFiresNothing :
    let s (m : ListMsg) (frozen : Bool) : State :=
      withList 0 { blankList with
        entries := [⟨entry 1 0 7 .fwd .set 2 0 none, 5, 0⟩], frozen := frozen, inbox := [m] } State.reset
    ((s .freeze false).clist 0).inbox = .freeze :: [] ∧ ((s .unfreeze true).clist 0).inbox = .unfreeze :: [] ∧
    (((s (.count ⟨.fwd, 5, 1, 0⟩) true).clist 0).inbox = .count ⟨.fwd, 5, 1, 0⟩ :: [] ∧
      ((s (.count ⟨.fwd, 5, 1, 0⟩) true).clist 0).frozen = true) ∧
    (∀ x ∈ ((s (.count ⟨.rev, 5, 1, 0⟩) false).clist 0).entries, x.pos ≠ 5 ∨ x.entry.qual.accepts .rev = false) ∧
    (State.reset.clist 0).inbox = [] ∧ ListMsg.count ⟨.fwd, 5, 1, 0⟩ ∈ ((s (.count ⟨.fwd, 5, 1, 0⟩) true).clist 0).inbox := by
  decide

theorem witness_OneShotEntryFiresAndIsReleased :
    let x : Armed := ⟨entry 1 0 7 .fwd .set 2 0 none, 5, 0⟩
    let s := withList 0 { (oneEntry.clist 0) with inbox := [.count ⟨.fwd, 5, 6, 0⟩] } oneEntry
    let l := s.clist 0
    (l.inbox = .count ⟨.fwd, 5, 6, 0⟩ :: [] ∧ l.frozen = false ∧ (s.axis 0).config = some linear) ∧
      x.entry.repeatLeft = 0 := by decide

/-- R45, R180, R183: a release leaves its notice at a BARRIER, and at a DELETE_PAIR that discards the stamp at which its pair's live
count reached 0. -/
theorem test_released_is_told :
    let e := entry 1 0 7 .fwd .set 2 0 none
    ((oneEntry.release e).proc 1 = .idle ∧
      ((busy 1 (.waiting waits) oneEntry).release e).proc 1 = .busy 1 7 (.waiting { waits with notices := [(0, 5), (0, 0)] })) ∧
    ((busy 0 (.discarding 1 ⟨[], [], 0, 0⟩ none) oneEntry).release e).proc 0 =
      .busy 1 7 (.discarding 1 ⟨[], [], 0, 0⟩ (some 0)) := by decide

/-- R107: two actions for one line at one count event, of entries without repeats, are taken at it in arm order before the line can
be configured anew: SET and then TOGGLE leave it INACTIVE. -/
theorem test_actions_before_release :
    let t := after (.listCountEvent 0) (withLine 2 { compareLine 0 .restart .inactive with refCount := 2 }
      (withList 0 { blankList with
        entries := [⟨entry 1 0 7 .fwd .set 2 0 none, 5, 0⟩, ⟨entry 1 0 8 .fwd .toggle 2 0 none, 5, 1⟩]
        inbox := [.count ⟨.fwd, 5, 6, 0⟩] } oneEntry))
    (t.line 2).state = .inactive ∧ (t.line 2).fromList = [] ∧ (t.line 2).refCount = 0 := by decide

theorem witness_RepeatingEntryAdvancesOrRetires :
    let x (pitch : Int) : Armed := ⟨entry 1 0 7 .fwd .set 2 1 (some pitch), 2 ^ 31 - 2, 0⟩
    let s (pitch : Int) : State := withAxis 0 (axisIn linear .running (2 ^ 31 - 2) 6) (withList 0 { blankList with
      entries := [x pitch], inbox := [.count ⟨.fwd, 2 ^ 31 - 2, 6, 0⟩] } State.reset)
    let crowd : List Armed := (List.range 8).map fun i => ⟨entry 4 0 21 .fwd .set 2 0 none, 2 ^ 31 - 1, i⟩
    (((s 1).clist 0).inbox = .count ⟨.fwd, 2 ^ 31 - 2, 6, 0⟩ :: [] ∧ ((s 1).clist 0).frozen = false ∧
      ((s 1).axis 0).config = some linear ∧
      (((s 1).clist 0).entries.filter fun y => y.pos == 2 ^ 31 - 2 && y.entry.qual.accepts .fwd) = [x 1] ∧
      (x 1).entry.repeatLeft = 0 + 1 ∧ (x 1).entry.pitch = some 1 ∧ (x 1).entry.report = true) ∧
    (linear.kind.target (2 ^ 31 - 2) 1 = some (2 ^ 31 - 1) ∧
      (((s 1).clist 0).entries.erase (x 1)).countP (fun y => y.pos == 2 ^ 31 - 1) < 8) ∧
    (((crowd ++ [x 1]).filter fun y => y.pos == 2 ^ 31 - 2 && y.entry.qual.accepts .fwd) = [x 1] ∧
      8 ≤ ((crowd ++ [x 1]).erase (x 1)).countP (fun y => y.pos == 2 ^ 31 - 1)) ∧
    linear.kind.target (2 ^ 31 - 2) 2 = none ∧
    ((0 : Int) ≤ 19 ∧ (19 : Int) < 20 ∧ -(20 : Int) < -19 ∧ (19 : Int) < 20 ∧ (AxisKind.rotary 20).target 19 19 = some 18 ∧
      (AxisKind.rotary 20).target 0 (-19) = some 1) := by decide

theorem witness_AllocationTakesAFreeEntry :
    let e := entry 1 0 7 .fwd .set 2 0 none
    (busy 1 (.allocateArm e 5) State.reset).proc 1 = .busy 1 7 (.allocateArm e 5) ∧
      (busy 1 (.allocateDeferred ⟨e, 5⟩ 0 true) State.reset).proc 1 = .busy 1 7 (.allocateDeferred ⟨e, 5⟩ 0 true) := by decide

theorem witness_LateTestLooksBehind :
    let g := { rotary 3600 with lateWindow := 50 }
    let s := withList 1 blankList (withAxis 1 (axisIn g .running 10 52310) State.reset)
    let e : Entry := entry 2 1 7 .fwd .set 0 0 none
    (s.lateTest 1 g e 3560 = some .fwd ∧ s.lateTest 1 g e 3559 = none) ∧
      ((0 : Int) ≤ (s.axis 1).position ∧ (s.axis 1).position < (3600 : Nat) ∧ (0 : Int) ≤ 3599 ∧ (3599 : Int) < (3600 : Nat) ∧
        ¬(3599 : Int) ≤ (s.axis 1).position) := by decide

theorem witness_InsertionArmsOrAnswers :
    let e (late : LatePolicy) (left : Nat) : Entry :=
      { entry 2 1 7 .fwd .set 0 left (if left = 0 then none else some 20) with late := late }
    let s (late : LatePolicy) (left : Nat) (pos : Int) : State := busy 2 (.inserting (e late left) pos)
      (withAxis 1 (axisIn (rotary 3600) .running 10 52310) State.reset)
    let g := rotary 3600
    ((s .wait 0 3600).proc 2 = .busy 1 7 (.inserting (e .wait 0) 3600) ∧ ((s .wait 0 3600).axis 1).config = some g ∧
      ((s .wait 0 3600).clist 1).inbox = []) ∧
    posOutside g.kind 3600 = true ∧ posOutside g.kind 3599 = false ∧
    (pitchTooWide g.kind { e .wait 1 with pitch := some 3600 } = true ∧ pitchTooWide g.kind { e .wait 1 with pitch := some 3599 } = false) ∧
    ((s .wait 0 11).lateTest 1 g (e .wait 0) 11 = none ∧ ((s .wait 0 11).clist 1).countAt 11 < 8) ∧
    ((s .fire 0 3560).lateTest 1 g (e .fire 0) 3560).isSome = true ∧ ((s .refuse 0 10).lateTest 1 g (e .refuse 0) 10).isSome = true ∧
    8 ≤ ({ blankList with entries := List.replicate 8 ⟨e .wait 0, 11, 0⟩ } : CList).countAt 11 ∧
    ((e .fire 2).repeatLeft = 1 + 1 ∧ (e .fire 2).pitch = some 20 ∧
      g.kind.target 3590 20 = some 10 ∧ linear.kind.target (2 ^ 31 - 1) 20 = none) := by decide

theorem witness_ActivationInsertsInBatchOrder :
    let e (late : LatePolicy) : Entry := { entry 2 1 7 .fwd .set 0 0 none with late := late }
    let k (late : LatePolicy) : Activation := ⟨2 ^ 31 - 20, 0, [⟨e late, 10⟩]⟩
    let s (late : LatePolicy) : State := withList 1 { blankList with activations := [k late] }
      (withAxis 1 (axisIn linear .running (2 ^ 31 - 5) 60014) State.reset)
    (((s .fire).clist 1).activations[0]? = some (k .fire) ∧ (k .fire).entries = ⟨e .fire, 10⟩ :: [] ∧
      ((s .fire).axis 1).config = some linear ∧ ((s .fire).clist 1).inbox = []) ∧
    (((s .fire).clist 1).discarding.contains 2 = false ∧ ({ blankList with discarding := [2] } : CList).discarding.contains 2 = true) ∧
    pitchTooWide linear.kind (e .fire) = false ∧ linear.kind.formed (2 ^ 31 - 20) 10 = some (2 ^ 31 - 10) ∧
    linear.kind.formed (2 ^ 31 - 20) 20 = none ∧
    ((s .fire).lateTest 1 linear (e .fire) (2 ^ 31 - 10) = some .fwd ∧ (e .fire).repeatLeft = 0) ∧
    ({ e .fire with repeatLeft := 1, pitch := some 20 } : Entry).repeatLeft = 0 + 1 ∧
    (linear.kind.target (2 ^ 31 - 10) 9 = some (2 ^ 31 - 1) ∧ linear.kind.target (2 ^ 31 - 10) 10 = none) ∧
    ((s .wait).lateTest 1 linear (e .wait) (2 ^ 31 - 4) = none ∧ ((s .wait).clist 1).countAt (2 ^ 31 - 4) < 8 ∧
      8 ≤ ({ blankList with entries := List.replicate 8 ⟨e .wait, 11, 0⟩ } : CList).countAt 11) ∧
    pitchTooWide (rotary 20).kind { e .wait with pitch := some 20 } = true ∧ (0 < 1) := by decide

theorem witness_ListsStayInOrderAndUncrowded : oneEntry.ListsInOrder ∧ ∃ t, step oneEntry = .next t := by
  refine ⟨?_, ⟨_, rfl⟩⟩
  have h : ∀ a : AxisId, (oneEntry.clist a).entries.length ≤ 1 := by decide
  intro a
  refine ⟨?_, fun pos => Nat.le_trans List.countP_le_length (Nat.le_trans (h a) (by decide))⟩
  have ha := h a
  match hl : (oneEntry.clist a).entries, ha with
  | [], _ => exact List.Pairwise.nil
  | [x], _ => exact List.pairwise_singleton _ x

theorem witness_PairsKeepOneRecordAtATime : oneEntry.OneRecord ∧ ∃ t, step oneEntry = .next t := by
  refine ⟨?_, ⟨_, rfl⟩⟩
  unfold State.OneRecord
  decide

theorem witness_EntriesStayAccountedFor : oneEntry.OneRecord ∧ oneEntry.EntriesCounted ∧ ∃ t, step oneEntry = .next t := by
  refine ⟨?_, ?_, ⟨_, rfl⟩⟩
  · unfold State.OneRecord
    decide
  · unfold State.EntriesCounted
    decide

theorem witness_ListRemovalsReachTheirScope :
    let rm : Removing := ⟨[.list 0], [], 0, 0⟩
    Block.list 0 ∈ rm.todo ∧ (busy 1 (.cancelling .all none rm) oneEntry).proc 1 = .busy 1 7 (.cancelling .all none rm) ∧
      (busy 0 (.cancellingAxis 0 rm) oneEntry).proc 0 = .busy 1 7 (.cancellingAxis 0 rm) ∧
      (busy 0 (.discarding 1 rm none) oneEntry).proc 0 = .busy 1 7 (.discarding 1 rm none) := by decide

theorem witness_LineTakesFireActions :
    let s (x : Retrigger) (st : LineState) (act : Action) : State :=
      withLine 9 { compareLine 2 x st with fromList := [⟨act, 520, 9200⟩] } State.reset
    let h : PulseEnds := ⟨some 541, none⟩
    ((s .extend .forced .set).line 9).fromList = ⟨.set, 520, 9200⟩ :: [] ∧
    LineMsg.count 520 ∉ ((s .extend .forced .set).line 9).fromAxis.tail ∧
    (let q : State := withLine 9 { compareLine 2 .extend .active with
        fromAxis := [.count 519, .count 520], fromList := [⟨.set, 520, 9200⟩] } State.reset;
      (q.line 9).fromAxis = .count 519 :: [.count 520] ∧ LineMsg.count 520 ∈ [LineMsg.count 520]) ∧ ((s .extend .forced .set).line 9).state = .forced ∧
    (State.reset.line 9).state = .undriven ∧ ((s .extend .inactive .set).line 9).state = .inactive ∧
    ((s .extend .active .set).line 9).state = .active ∧ ((s .extend (.pulsing h) .set).line 9).state = .pulsing h ∧
    ((s .restart (.pulsing h) .set).line 9).retrigger = .restart ∧ ((s .extend (.pulsing h) .set).line 9).retrigger = .extend ∧
    ((s .ignore (.pulsing h) .set).line 9).retrigger = .ignore ∧
    (State.reset.line 9).config = .disabled ∧ (State.reset.line 9).fromList = [] ∧
    (hostLine .forced).config = .host (drive .restart) ∧ (compareLine 2 .extend .forced).config = .compare 2 (drive .extend) ∧
    ((drive .extend).polarity = .normal ∧ ({ drive .extend with polarity := .inverted } : Drive).polarity = .inverted) := by decide

/-- R106: an inverted pin is high while the line is INACTIVE and low while it is ACTIVE, and a DISABLED line drives none. -/
theorem test_pin :
    let l (st : LineState) : Line := { blankLine false with config := .host ⟨.inverted, true, .restart, none⟩, state := st }
    (l .inactive).pin = some true ∧ (l .active).pin = some false ∧ (l .forced).pin = some false ∧ (blankLine false).pin = none := by
  decide

/-- A line that is to take the count event 10 of an axis whose list has not yet taken the count event 9, at which an entry fires. -/
def behind (act : Action) : State :=
  withList 1 { blankList with
      entries := [⟨entry 2 1 7 .fwd act 0 3 (some 100), 5, 0⟩], inbox := [.count ⟨.fwd, 5, 9, 0⟩, .freeze] }
    (withLine 0 { compareLine 1 .restart .inactive with fromAxis := [.count 10] }
      (withAxis 1 (axisIn linear .running 6 10) State.reset))

theorem witness_commands_before_a_count (s : State) :
    exec (.listCountEvent 1) s = .next (after (.listCountEvent 1) s) ∧ exec (.lineFireAction 0) s = .next (after (.lineFireAction 0) s) :=
  ⟨rfl, rfl⟩

/-- R111: a PULSE of 1 COUNT fired at serial 9 has ended at the count event 10, whichever of its events comes first; one of 2 COUNTS
goes on. -/
theorem test_pulse_ends_at_its_count :
    let ended (q : State) : Prop := (q.line 0).state = .inactive ∧ (q.line 0).fromList = [] ∧ (q.line 0).fromAxis = []
    ended (after (.pulseEndCount 0) (behind (.pulse 1 .counts))) ∧
    ended (after (.pulseEndCount 0) (after (.listCountEvent 1) (behind (.pulse 1 .counts)))) ∧
    ((after (.pulseEndCount 0) (behind (.pulse 2 .counts))).line 0).state = .pulsing ⟨some 11, none⟩ := by decide

theorem witness_PulsesEndWhenNoEndIsLeft :
    let s (h : PulseEnds) (tick : Bool) : State :=
      { withLine 9 { compareLine 2 .extend (.pulsing h) with tick := tick, fromAxis := [.count 550] } State.reset with ts := 9400 }
    ((s ⟨some 550, none⟩ false).line 9).state = .pulsing ⟨some 550, none⟩ ∧
    ((s ⟨some 550, none⟩ false).line 9).fromAxis = .count 550 :: [] ∧ (550 ≤ 550 ∧ 550 < 551) ∧
    ((s ⟨some 550, none⟩ false).line 9).config = .compare 2 (drive .extend) ∧ ((s ⟨some 550, none⟩ false).clist 2).inbox = [] ∧
    ((s ⟨some 550, none⟩ false).line 9).fromList = [] ∧
    (let q := behind (.pulse 1 .counts);
      (q.line 0).fromAxis = .count 10 :: [] ∧ (q.line 0).config = .compare 1 (drive .restart) ∧
      (q.clist 1).inbox = .count ⟨.fwd, 5, 9, 0⟩ :: [.freeze] ∧ (9 < 10 ∧ LineMsg.count 9 ∉ ([] : List LineMsg)) ∧
      (q.line 0).fromList = []) ∧
    (let q := after (.listCountEvent 1) (behind (.pulse 1 .counts));
      (q.line 0).fromList = ⟨.pulse 1 .counts, 9, 0⟩ :: [] ∧ (q.clist 1).inbox = [.freeze]) ∧
    ((s ⟨some 550, some 9400⟩ true).line 9).state = .pulsing ⟨some 550, some 9400⟩ ∧
    (9400 ≤ (s ⟨none, some 9400⟩ true).ts ∧ ((s ⟨none, some 9400⟩ true).line 9).tick = true) ∧
    ((s ⟨none, some 9401⟩ true).ts < 9401 ∧ ((s ⟨none, some 9400⟩ false).line 9).tick = false) := by decide

theorem witness_LineFollowsItsAxisAndHoldIn :
    let s (m : LineMsg) : State := withLine 9 { compareLine 2 .extend .active with fromAxis := [m] } State.reset
    ((s .stop).line 9).fromAxis = .stop :: [] ∧ ((s .held).line 9).fromAxis = .held :: [] ∧
      ((s .resumed).line 9).fromAxis = .resumed :: [] ∧ (∀ k, LineMsg.stop ≠ .count k) := by
  refine ⟨by decide, by decide, by decide, fun k h => LineMsg.noConfusion h⟩

theorem witness_LineTakesTripNotices :
    let s (l : Line) (m : TripMsg) : State := withLine 9 { l with fromMonitor := [m] } State.reset
    ((s (blankLine false) .trip).line 9).fromMonitor = .trip :: [] ∧ ((s (blankLine false) .trip).line 9).config = .disabled ∧
    ((s (hostLine .active) .trip).line 9).config = .host (drive .restart) ∧
    ((s (compareLine 2 .extend .active) .trip).line 9).config = .compare 2 (drive .extend) ∧
    ((s (hostLine .forced) .release).line 9).fromMonitor = .release :: [] := by decide

theorem witness_HostWriteReachesTheLine :
    let s (l : Line) (act : Action) : State := busy 1 (.writing 9 act) (withLine 9 l State.reset)
    (s (hostLine .active) .set).proc 1 = .busy 1 7 (.writing 9 .set) ∧
    ((s (compareLine 2 .extend .active) .set).line 9).isHost = false ∧ ((s (hostLine .forced) .set).line 9).isHost = true ∧
    ((s (hostLine .forced) .set).line 9).state = .forced ∧
    (((s (hostLine .active) .clear).line 9).isHost = true ∧ ((s (hostLine .active) .clear).line 9).state = .active) ∧
    ((s (hostLine .inactive) (.pulse 1 .ticks)).line 9).state = .inactive := by decide

/-- Channel 3 on axis 1, RUNNING at 20000. -/
def marked (st : ChanState) (w : Option (Int × Int)) (closed : List Batch) (axis : AxisState) : State :=
  withChan 3 { chanIn st w with closed := closed } (withAxis 1 (axisIn linear axis 20000 60000) State.reset)

theorem witness_CaptureEdgeLatchesAndHandsOver :
    let s := marked .accepting none [⟨2, [⟨entry 2 1 7 .fwd .set 4 0 none, 10⟩]⟩] .running
    let g : ChanConfig := ⟨3, .rising, 1, none, 500, true⟩
    ((s.chan 3).config = some g ∧ g.edge.takes (!(s.chan 3).ref) = true ∧ (s.axis g.axis).counting = true) ∧
    (s.chan 3).closed = ⟨2, [⟨entry 2 1 7 .fwd .set 4 0 none, 10⟩]⟩ :: [] ∧ (s.chan 3).inLockout = false ∧
    g.inWindow (s.axis 1).isRotary (s.axis 1).position = true ∧ (s.axis 1).isHeld = false ∧
    ((marked (.lockout 60500) none [] .running).chan 3).inLockout = true ∧
    ((marked .accepting none [] (.held .running)).axis 1).isHeld = true ∧
    ((marked .accepting none [] .running).chan 3).closed = [] ∧
    ({ g with window := some (20001, 20002) } : ChanConfig).inWindow false 20000 = false := by decide

theorem witness_WindowTestOfALatchedPosition :
    (∃ g : ChanConfig, g.window = none) ∧ (∃ g : ChanConfig, g.window = some (5, 5) ∧ (5 : Int) ≤ 5) ∧
    (let s := marked .accepting (some (6, 5)) [] .running;
      let g : ChanConfig := ⟨3, .rising, 1, some (6, 5), 500, true⟩;
      (s.chan 3).config = some g ∧ g.window = some (6, 5) ∧ (5 : Int) < 6 ∧ (s.axis g.axis).isRotary = false ∧
        (s.axis g.axis).counting = true ∧ true = !(s.chan 3).ref ∧ g.edge.takes true = true) :=
  ⟨⟨⟨3, .rising, 1, none, 500, true⟩, rfl⟩, ⟨⟨3, .rising, 1, some (5, 5), 500, true⟩, rfl, by decide⟩, by decide⟩

theorem witness_ChannelFollowsItsAxisAndInput :
    let s (m : ChanMsg) : State := withChan 3 { chanIn (.lockout 60500) none with inbox := [m] } State.reset
    ((s (.count 60500)).chan 3).inbox = .count 60500 :: [] ∧ ((s .axisConfig).chan 3).inbox = .axisConfig :: [] ∧
    ((s .axisConfig).chan 3).config = some ⟨3, .rising, 1, none, 500, true⟩ ∧ ((s .axisConfig).chan 2).config = none := by decide

theorem witness_AppendBuildsTheOpenBatch :
    let w : Waiting := ⟨entry 2 1 7 .fwd .set 4 0 none, 10⟩
    let s (x : Channel) : State := busy 2 (.appending w 3 true) (withChan 3 x State.reset)
    let x := chanIn .accepting none
    (s x).proc 2 = .busy 1 7 (.appending w 3 true) ∧ (((s (blankChannel false)).chan 3).boundTo 1 = false ∧
      ((s x).chan 3).boundTo 1 = true) ∧ ((s x).chan 3).openBatch = none ∧
    ((s { x with openBatch := some ⟨2, List.replicate 63 w⟩ }).chan 3).openBatch = some ⟨2, List.replicate 63 w⟩ ∧
    ((List.replicate 63 w).length < 64 ∧ 64 ≤ (List.replicate 64 w).length) ∧
    (¬16 ≤ ((s { x with closed := List.replicate 15 ⟨2, [w]⟩ }).chan 3).closed.length ∧
      16 ≤ ((s { x with closed := List.replicate 16 ⟨2, [w]⟩ }).chan 3).closed.length) ∧ ((1 : PairId) ≠ 2) := by decide

theorem witness_ChannelRemovalsReachTheirScope :
    let rm : Removing := ⟨[.channel 3], [], 0, 0⟩
    let s := marked .accepting none [⟨2, [⟨entry 2 1 7 .fwd .set 4 0 none, 10⟩]⟩] .running
    Block.channel 3 ∈ rm.todo ∧ (busy 2 (.cancelling .all (some 1) rm) s).proc 2 = .busy 1 7 (.cancelling .all (some 1) rm) ∧
      ((s.chan 3).boundTo 1 = true ∧ (s.chan 3).boundTo 0 = false) ∧
      (busy 0 (.cancellingAxis 1 rm) s).proc 0 = .busy 1 7 (.cancellingAxis 1 rm) ∧
      (busy 0 (.discarding 2 rm none) s).proc 0 = .busy 1 7 (.discarding 2 rm none) := by decide

theorem witness_CheckEventJudgesEverySlot :
    (tripping.monitor.deadline = some 10000 ∧ tripping.monitor.enable = true ∧ tripping.monitor.expired = true) ∧
    (State.reset.monitor.deadline = none ∧ State.reset.monitor.enable = false ∧ State.reset.monitor.expired = false) ∧
    ((blankLine false).config = .disabled ∧ (hostLine .active).config = .host (drive .restart) ∧
      (compareLine 2 .extend .active).config = .compare 2 (drive .extend) ∧ (drive .restart).feedback = none ∧
      ({ drive .restart with feedback := some .normal } : Drive).feedback = some .normal ∧
      ({ drive .restart with feedback := some .inverted } : Drive).feedback = some .inverted) := by decide

/-- R119, R129, R194: an ACTIVE line whose inverted feedback input is high disagrees: driven 1, feedback 0, not DISABLED. -/
theorem test_feedback_sample :
    let l : Line := { blankLine false with config := .host ⟨.normal, false, .restart, some .inverted⟩, state := .active }
    l.feedbackSample true = ⟨true, 1⟩ ∧ l.feedbackSample false = ⟨false, 3⟩ ∧ (blankLine false).feedbackSample true = ⟨false, 4⟩ := by
  decide

theorem witness_MonitorRecordsSetTheirSlots :
    let slot (sv : Severity) (present : Bool) : State :=
      reading 0 (withSlot 2 ⟨some ⟨.overspeed 2 200, 2, sv⟩, .tripped, 2, 0, some ⟨present, 260⟩, false⟩ State.reset)
    let r := rec [(0, 0x4E), (8, 2)]
    ((reading 0 State.reset).Takes (rec [(0, 0x4D), (1, 1), (8, 2), (10, 2), (11, 1), (13, 1)]) .monitorConfig 0 ∧
      (reading 0 State.reset).Takes r .monitorRelease 0 ∧ ((reading 0 State.reset).slot 2).state ≠ .tripped) ∧
    ((slot .hold true).Takes r .monitorRelease 0 ∧ ((slot .hold true).slot (r.slotAt 8)).state = .tripped ∧
      ((slot .hold true).slot (r.slotAt 8)).config = some ⟨.overspeed 2 200, 2, .hold⟩ ∧
      ((slot .hold true).slot (r.slotAt 8)).last = some ⟨true, 260⟩) ∧
    ((slot .hold false).slot (r.slotAt 8)).last = some ⟨false, 260⟩ ∧
    ((slot .latch false).slot (r.slotAt 8)).config = some ⟨.overspeed 2 200, 2, .latch⟩ ∧
    (reading 0 State.reset).Takes (rec [(0, 0x4F), (1, 1), (8, 0x10), (9, 0x27)]) .monitorGlobal 0 := by
  unfold State.Takes
  decide

theorem witness_LatchLastsUntilReset :
    let g : SlotConfig := ⟨.overspeed 2 200, 2, .latch⟩
    let s := withSlot 2 ⟨some g, .tripped, 2, 0, some ⟨true, 260⟩, false⟩ tripping
    s.Latched 2 g ∧ (Instr.checkEvent (Vector.replicate 16 false)).isReset = false ∧
      ∃ t, exec (.checkEvent (Vector.replicate 16 false)) s = .next t := by
  refine ⟨?_, by decide, ⟨_, rfl⟩⟩
  unfold State.Latched
  decide

theorem witness_FetchEngineServesThePairs :
    arbiter.engine = none ∧ arbiter.wantsFetch 0 = false ∧ arbiter.wantsFetch 6 = true ∧
    (∀ q : PairId, q ≠ 0 → arbiter.wantsFetch q = true → (6 + 7 - arbiter.lastServed.val) % 8 ≤ (q.val + 7 - arbiter.lastServed.val) % 8) ∧
    (withPair 0 posted arbiter).wantsFetch 0 = true ∧ (∀ p, State.reset.wantsFetch p = false) ∧
    (reading 1 State.reset).engine = some ⟨1, 0⟩ ∧
    (reading 1 (withPair 1 { activePair with state := .error, cause := some .doneRange } State.reset)).stopped 1 = true := by decide

theorem witness_RingsTakePostingRequests :
    let ack : CqRequest := .ack ⟨1, 7, .ok, 0, 0⟩
    let fire : CqRequest := .fire ⟨3, 9, 3000, 20, .fwd, false, 0, 0⟩
    let s (q : CqRequest) (x : Pair) : State := withPair 3 x { State.reset with cqReq := State.reset.cqReq.set 3 [q] }
    let nq (st : NqState) (done : Nat) : State :=
      { State.reset with nq := ⟨st, 0, 16, 0, 0, done, 0, 0⟩, nqReq := [.capture 3 20000 0 true false 0 0] }
    ((s ack activePair).requests 3 = ack :: [] ∧ (activePair.state ≠ .absent) ∧ ack.isAck = true ∧ fire.isAck = false) ∧
    ((s ack activePair).stopped 3 = false ∧ (s ack { activePair with state := .error, cause := some .doneRange }).stopped 3 = true) ∧
    (1 ≤ ((s fire { activePair with cqWrite := 14 }).pair 3).free ∧ ((s fire { activePair with cqWrite := 15 }).pair 3).free = 0) ∧
    ((s fire absentPair).pair 3).state = .absent ∧ (nq .unset 0).nqReq = .capture 3 20000 0 true false 0 0 :: [] ∧
    ((nq .unset 0).nq.state = .unset ∧ (nq .error 0).nq.state = .error) ∧
    ((nq .active 0).nq.state = .active ∧ 1 ≤ (nq .active 2).nq.free ∧ (nq .active 1).nq.free = 0) := by decide

theorem witness_WritesMoveTheIndices :
    let bus (w : QueuedWrite) (stale : Bool) : State := { State.reset with onBus := some ⟨w, 0, stale⟩ }
    (({ State.reset with writeQ := [.head 0 1] } : State).writeQ = .head 0 1 :: [] ∧ State.reset.onBus = none) ∧
    (bus (.record (.cq 3) 15 0 []) false).onBus = some ⟨.record (.cq 3) 15 0 [], 0, false⟩ ∧
    (bus (.record .nq 15 0 []) false).onBus = some ⟨.record .nq 15 0 [], 0, false⟩ ∧
    (bus (.head 3 1) false).onBus = some ⟨.head 3 1, 0, false⟩ ∧
    (bus (.tail (.cq 3) 0 true) false).onBus = some ⟨.tail (.cq 3) 0 true, 0, false⟩ ∧
    (bus (.tail .nq 0 true) true).onBus = some ⟨.tail .nq 0 true, 0, true⟩ ∧
    (bus (.record (.cq 0) 0 1 []) true).onBus = some ⟨.record (.cq 0) 0 1 [], 0, true⟩ ∧ RingId.nq ≠ .cq 0 := by decide

theorem witness_RingsStayInOrder :
    let s : State := { oneEntry with onBus := some ⟨.tail (.cq 1) 1 true, 0, false⟩, pending := [.statusBlockWriteDone] }
    let s := withPair 1 { activePair with cqWrite := 1 } s
    s.OneRecord ∧ s.RingsInOrder ∧ ∃ t, step s = .next t := by
  refine ⟨?_, ?_, ⟨_, rfl⟩⟩
  · unfold State.OneRecord
    decide
  · unfold State.RingsInOrder RingIndices
    decide

theorem witness_WrittenBytesTellTheirRecord :
    let q : CqRequest := .fire ⟨3, 9, 2 ^ 31 - 1, 65535, .rev, true, 2 ^ 64 - 1, 2 ^ 64 - 1⟩
    q.bytes 65535 = q.bytes 65535 ∧ ((2 : Int) ^ 31 - 1 < 2 ^ 31 ∧ (65535 : Nat) < 2 ^ 16 ∧ (2 : Nat) ^ 64 - 1 < 2 ^ 64) := by decide

theorem witness_BadRecordsAreRefused :
    let s := reading 0 State.reset
    let r := rec [(0, 0x45), (8, 4)]
    (Instr.axisStart r).record = some (.axisStart, r) ∧ s.fetchedFor r .axisStart = some 0 ∧ badField .axisStart r = some 4 ∧
    (s.engine = some ⟨0, 0⟩ ∧ s.stopped 0 = false ∧ (∀ k ∈ Kind.admin, (rec [(0, 0x01)]).byte 0 ≠ k.code)) ∧
    (∀ k ∈ Kind.work, (rec [(0, 0x41)]).byte 0 ≠ k.code) ∧ s.Takes (rec []) .nop 0 := by
  unfold State.Takes
  decide

theorem witness_WorkRecordsGoOn :
    let s := reading 1 (withPair 1 activePair (withAxis 0 (axisIn linear .running 0 0) State.reset))
    let arm := rec [(0, 0x01), (29, 3)]
    let deferred := rec [(0, 0x02), (27, 3), (29, 3)]
    (s.Takes arm .arm 1 ∧ (s.axis (arm.entry 1 (arm.axisAt 27)).axis).config = some linear ∧
      ((reading 1 State.reset).axis 0).config = none) ∧
    (s.Takes deferred .armDeferred 1 ∧ (s.chan (deferred.chanAt 27)).config = none ∧
      ((reading 1 (marked .accepting none [] .running)).chan (deferred.chanAt 27)).config = some ⟨3, .rising, 1, none, 500, true⟩ ∧
      ((marked .accepting none [] .running).axis 1).config = some linear) ∧
    s.Takes (rec [(0, 0x03), (1, 1), (12, 2), (14, 3)]) .cancel 1 ∧ s.Takes (rec [(0, 0x04), (8, 15), (9, 3), (12, 1)]) .lineWrite 1 ∧
    (s.Takes (rec [(0, 0x05), (12, 2)]) .barrier 1 ∧ s.proc 1 = .idle) := by
  unfold State.Takes
  decide

theorem witness_ProcessorsTakeTheirAnswers :
    let rm (todo : List Block) : Removing := ⟨todo, [(2, 9)], 0, 0⟩
    (busy 1 (.waiting waits) State.reset).proc 1 = .busy 1 7 (.waiting waits) ∧ waits.notices = (0, 5) :: [] ∧
    (waits.expired = true ∧ ({ waits with expired := false } : BarrierWait).expired = false) ∧
    (waits.scope.fits 0 = true ∧ BarrierScope.fits (.group 1) 0 = false) ∧
    ((rm []).answers = (2, 9) :: [] ∧ (rm []).todo = [] ∧ (rm [.list 0]).todo ≠ []) ∧
    (busy 1 (.cancelling .all none (rm [])) State.reset).proc 1 = .busy 1 7 (.cancelling .all none (rm [])) ∧
    (busy 0 (.cancellingAxis 0 (rm [])) State.reset).proc 0 = .busy 1 7 (.cancellingAxis 0 (rm [])) ∧
    (busy 0 (.discarding 1 (rm []) none) State.reset).proc 0 = .busy 1 7 (.discarding 1 (rm []) none) := by decide

theorem witness_PairRecordsMakeAndDrainPairs :
    let s := reading 0 (withPair 1 activePair State.reset)
    let create (p : Byte) : Record := rec [(0, 0x41), (8, p), (32, 16), (35, 16), (36, 1)]
    let delete (p : Byte) : Record := rec [(0, 0x42), (8, p)]
    (s.Takes (create 1) .createPair 0 ∧ (s.pair ((create 1).pairAt 8)).state ≠ .absent ∧
      s.Takes (create 8) .createPair 0 ∧ (s.pair ((create 8).pairAt 8)).state = .absent) ∧
    (s.Takes (delete 8) .deletePair 0 ∧ (s.pair ((delete 8).pairAt 8)).state = .absent ∧ s.Takes (delete 1) .deletePair 0 ∧
      s.proc ((delete 1).pairAt 8) = .idle ∧
      (busy 1 (.waiting waits) s).proc ((delete 1).pairAt 8) = .busy 1 7 (.waiting waits)) ∧
    s.Takes (rec [(0, 0x43), (16, 16)]) .setNoticeRing 0 := by
  unfold State.Takes
  decide

theorem witness_DrainsEndInTheirWays :
    let s (discard : Bool) : State := busy 0 (.draining 1 discard) (withPair 1 { activePair with state := .draining } State.reset)
    let d : State := busy 0 (.discarding 1 ⟨[], [], 3, 9⟩ (some 5)) (withPair 1 { activePair with state := .draining } State.reset)
    ((1 : PairId) ≠ 0 ∧ (s false).proc 0 = .busy 1 7 (.draining 1 false) ∧ (s false).granted 1 = false ∧ (s false).proc 1 = .idle ∧
      (s false).pool.live[(1 : PairId)] = 0) ∧ (reading 1 (s false)).granted 1 = true ∧
    oneEntry.pool.live[(1 : PairId)] ≠ 0 ∧ (s true).proc 0 = .busy 1 7 (.draining 1 true) ∧
    (d.proc 0 = .busy 1 7 (.discarding 1 ⟨[], [], 3, 9⟩ (some 5)) ∧ d.pool.live[(1 : PairId)] = 0) := by decide

theorem witness_LineAndChannelConfiguration :
    let s := reading 0 (withAxis 1 (axisIn linear .stopped 0 0) State.reset)
    let line (mode : Byte) : Record := rec [(0, 0x4B), (8, 15), (9, mode), (10, 1)]
    let chan (f : Byte) (lo hi : Byte) : Record := rec [(0, 0x4C), (1, f), (8, 3), (9, 3), (11, 1), (12, lo), (16, hi)]
    (s.Takes (line 0) .lineConfig 0 ∧ (line 0).lineConfig = .disabled ∧ s.Takes (line 1) .lineConfig 0 ∧
      (line 1).lineConfig = .host (line 1).drive ∧ s.Takes (line 2) .lineConfig 0 ∧
      (line 2).lineConfig = .compare 1 (line 2).drive) ∧
    (s.Takes (chan 5 2 1) .captureConfig 0 ∧ (chan 5 2 1).flag 0 = true ∧ (s.axis (chan 5 2 1).chanConfig.axis).config = some linear ∧
      (chan 5 2 1).chanConfig.window = some (2, 1) ∧ (State.reset.axis 1).config = none ∧ (chan 5 1 1).chanConfig.window = some (1, 1)) ∧
    ((rotary 20).kind = .rotary 20 ∧ (chan 5 20 19).chanConfig.window = some (20, 19) ∧
      (chan 5 19 20).chanConfig.window = some (19, 20)) ∧
    ((reading 0 State.reset).Takes (rec [(0, 0x4C), (8, 3)]) .captureConfig 0 ∧ (rec [(0, 0x4C), (8, 3)]).flag 0 = false ∧
      (rec [(0, 0x4C), (1, 2), (8, 3)]).flag 1 = true ∧ (State.reset.chan 3).waiting = [] ∧
      ((marked .accepting none [⟨2, [⟨entry 2 1 7 .fwd .set 4 0 none, 10⟩]⟩] .running).chan 3).waiting ≠ []) := by
  unfold State.Takes
  decide

/-- R120, R182: a QUERY of a line finds the release sent to it taken, and a trip sent after it may still wait. -/
theorem test_query_takes_releases :
    let s := withLine 15 { hostLine .inactive with fromMonitor := [.trip, .release, .trip] } State.reset
    ((s.settle (.line 15)).line 15).fromMonitor = [.trip] ∧ ((s.settle (.line 15)).line 15).state = .inactive := by decide

/-- R5, R112: a pulse with end 1003 is over at 1004, also when no PULSE_END_TICK came. -/
theorem test_pulse_does_not_outlast_its_end :
    let s := withLine 4 (hostLine (.pulsing ⟨none, some 1003⟩)) { State.reset with ts := 1002 }
    ((after .tick s).line 4).state = .pulsing ⟨none, some 1003⟩ ∧ ((after .tick (after .tick s)).line 4).state = .inactive := by
  decide

/-- R3, R70: an insertion finds the count event that reached its position judged, so that a late WAIT entry waits for the next one. -/
theorem test_insertion_after_count :
    let e : Entry := entry 2 1 7 .fwd .set 0 0 none
    let s := busy 2 (.inserting e 5) (withList 1 { blankList with inbox := [.count ⟨.fwd, 5, 9, 0⟩] }
      (withAxis 1 (axisIn linear .running 5 9) State.reset))
    ((after (.insertion 2) s).clist 1).entries = [⟨e, 5, 0⟩] ∧ ((after (.insertion 2) s).clist 1).inbox = [] := by decide

/-- R3, R180: the ack of an expired BARRIER has the stamp of the expiry tick, also when the next tick finds the expiry waiting. -/
theorem test_timeout_stamp :
    let s := busy 1 (.waiting { waits with expired := false }) { State.reset with ts := 99 }
    (after (.barrierTimeout 1) (after .tick s)).requests 1 = [.ack ⟨1, 7, .timedOut, 1, 100⟩] ∧
      (after .tick (after .tick s)).requests 1 = [.ack ⟨1, 7, .timedOut, 1, 100⟩] ∧ (after .tick (after .tick s)).ts = 101 := by decide

theorem witness_QueriesWriteTheirSnapshot :
    let s := reading 0 (withAxis 3 (axisIn linear .stopped 0 0) State.reset)
    let t : State := { busy 0 (.querying 5) State.reset with onBus := some ⟨.snapshot 64 [], 64, false⟩ }
    s.Takes (rec [(0, 0x50), (8, 1), (9, 15), (16, 64)]) .query 0 ∧ .release ∉ (State.reset.line 15).fromMonitor ∧
    (let u := withLine 15 { hostLine .forced with fromMonitor := [.trip, .release, .trip] } State.reset;
      (u.line 15).fromMonitor = [.trip] ++ .release :: [.trip] ∧ TripMsg.release ∉ [TripMsg.trip]) ∧
    (t.proc 0 = .busy 1 7 (.querying 5) ∧ t.onBus = some ⟨.snapshot 64 [], 64, false⟩) ∧
    (s.Takes (rec [(0, 0x51), (8, 3)]) .cancelAxis 0 ∧ (s.axis ((rec [(0, 0x51), (8, 3)]).axisAt 8)).config = some linear) := by
  unfold State.Takes
  decide

end Sys2Proof.Tests
end

namespace Sys2Proof.Machine

/-! ## The meanings of the commands of this part -/

theorem exec_tick_eq (s : State) : exec .tick s = .next (if s.resetting = some .full then s else s.takeDue.advanceTime) := rfl

theorem exec_softReset_eq (pins : Pins) (s : State) :
    exec (.softReset pins) s = .next (s.whenReady fun s => s.softReset pins) := rfl

theorem exec_resetDone_eq (s : State) :
    exec .resetDone s = .next (if s.resetEnds then { s with resetting := none } else s) := rfl

theorem exec_prescalerExpiry_eq (a : AxisId) (s : State) : exec (.prescalerExpiry a) s = execPrescalerExpiry a s := rfl

theorem exec_prescalerAdvance_eq (a : AxisId) (s : State) : exec (.prescalerAdvance a) s = execPrescalerAdvance a s := rfl

theorem exec_listCountEvent_eq (a : AxisId) (s : State) : exec (.listCountEvent a) s = execListCountEvent a s := rfl

theorem exec_listFreeze_eq (a : AxisId) (s : State) : exec (.listFreeze a) s = execListFreeze a s := rfl

theorem exec_listUnfreeze_eq (a : AxisId) (s : State) : exec (.listUnfreeze a) s = execListUnfreeze a s := rfl

theorem exec_lineFireAction_eq (n : LineId) (s : State) : exec (.lineFireAction n) s = execLineFireAction n s := rfl

theorem exec_pulseEndCount_eq (n : LineId) (s : State) : exec (.pulseEndCount n) s = execPulseEndCount n s := rfl

theorem exec_pulseEndTick_eq (n : LineId) (s : State) : exec (.pulseEndTick n) s = .next (s.endTickPulse n) := rfl

theorem exec_checkEvent_eq (fb : Vector Bool 16) (s : State) : exec (.checkEvent fb) s = .next (s.takeCheck fb) := rfl

theorem exec_barrierReleaseNotice_eq (p : PairId) (s : State) :
    exec (.barrierReleaseNotice p) s = execBarrierReleaseNotice p s := rfl

theorem exec_barrierTimeout_eq (p : PairId) (s : State) : exec (.barrierTimeout p) s = .next (s.timeOut p) := rfl

theorem exec_removalAnswer_eq (p : PairId) (s : State) : exec (.removalAnswer p) s = execRemovalAnswer p s := rfl

/-! ## What no command but a TICK or a reset changes (R1, R143, log 2) -/

/-- The timestamp, the reset in progress with its cause and its tick, and the queue of waiting commands. -/
def State.clock (s : State) : Nat × Option ResetCause × ResetCause × Bool × List Instr :=
  (s.ts, s.resetting, s.resetCause, s.resetTick, s.pending)

/-- States of one clock have one timestamp. -/
theorem State.ts_of_clock {s t : State} (h : t.clock = s.clock) : t.ts = s.ts := congrArg Prod.fst h

/-- States with the same five fields have one clock. -/
theorem State.clock_eq {s t : State} (ts : t.ts = s.ts) (resetting : t.resetting = s.resetting)
    (cause : t.resetCause = s.resetCause) (tick : t.resetTick = s.resetTick) (pending : t.pending = s.pending) : t.clock = s.clock := by
  simp only [State.clock, ts, resetting, cause, tick, pending]

section
variable (s : State)

/-! The updates of one block -/

@[simp] theorem State.updAxis_clock (a : AxisId) (f : Axis → Axis) : (s.updAxis a f).clock = s.clock := by simp [State.clock]
@[simp] theorem State.updList_clock (a : AxisId) (f : CList → CList) : (s.updList a f).clock = s.clock := by simp [State.clock]
@[simp] theorem State.updChan_clock (c : ChanId) (f : Channel → Channel) :
    (s.updChan c f).clock = s.clock := by simp [State.clock]
@[simp] theorem State.updLine_clock (n : LineId) (f : Line → Line) : (s.updLine n f).clock = s.clock := by simp [State.clock]
@[simp] theorem State.updSlot_clock (m : SlotId) (f : Slot → Slot) : (s.updSlot m f).clock = s.clock := by simp [State.clock]
@[simp] theorem State.updPair_clock (p : PairId) (f : Pair → Pair) : (s.updPair p f).clock = s.clock := by simp [State.clock]
@[simp] theorem State.setProc_clock (p : PairId) (x : Proc) : (s.setProc p x).clock = s.clock := by simp [State.clock]
@[simp] theorem State.setRequests_clock (p : PairId) (l : List CqRequest) :
    (s.setRequests p l).clock = s.clock := by simp [State.clock]
@[simp] theorem State.updSlots_clock (f : SlotId → Slot → Slot) : (s.updSlots f).clock = s.clock := by simp [State.clock]
@[simp] theorem State.updProcs_clock (f : PairId → Proc → Proc) : (s.updProcs f).clock = s.clock := by simp [State.clock]

/-! What one block hands to another -/

@[simp] theorem State.tellList_clock (a : AxisId) (m : ListMsg) : (s.tellList a m).clock = s.clock := by simp [State.clock]
@[simp] theorem State.tellLines_clock (a : AxisId) (m : LineMsg) : (s.tellLines a m).clock = s.clock := by simp [State.clock]
@[simp] theorem State.tellChans_clock (a : AxisId) (m : ChanMsg) : (s.tellChans a m).clock = s.clock := by simp [State.clock]
@[simp] theorem State.tellTrip_clock (n : LineId) (m : TripMsg) : (s.tellTrip n m).clock = s.clock := by simp [State.clock]
@[simp] theorem State.sendHold_clock (a : AxisId) (c : Cause) : (s.sendHold a c).clock = s.clock := by simp [State.clock]
@[simp] theorem State.handNotice_clock (n : Notice) : (s.handNotice n).clock = s.clock := by simp [State.clock]
@[simp] theorem State.handAck_clock (p : PairId) (st : Status) (d t : Nat) : (s.handAck p st d t).clock = s.clock := by
  unfold State.handAck; split <;> simp [State.clock]
@[simp] theorem State.setPhase_clock (p : PairId) (ph : Phase) : (s.setPhase p ph).clock = s.clock := by
  unfold State.setPhase; split <;> simp [State.clock]
@[simp] theorem State.startRecord_clock (p : PairId) (r : Record) : (s.startRecord p r).clock = s.clock := by simp [State.clock]

/-- A record keeps the clock when what it does past step 3 keeps it (R170). -/
theorem State.onRecord_clock (r : Record) (k : Kind) (f : PairId → State → State) (h : ∀ p u, (f p u).clock = u.clock) :
    (s.onRecord r k f).clock = s.clock := by
  unfold State.onRecord
  split
  · next p _ =>
    dsimp only
    split
    · simp
    · rw [h, State.startRecord_clock]
  · rfl

/-- A record of a configured axis keeps the clock when what it does there keeps it. -/
theorem State.onAxis_clock (r : Record) (k : Kind) (f : PairId → AxisId → AxisConfig → State → State)
    (h : ∀ p a g u, (f p a g u).clock = u.clock) : (s.onAxis r k f).clock = s.clock :=
  s.onRecord_clock r k _ fun p u => by
    split
    · exact h ..
    · simp

/-- A register write keeps the clock when what it does while READY is 1 keeps it (R142). -/
theorem State.whenReady_clock (f : State → State) (h : (f s).clock = s.clock) : (s.whenReady f).clock = s.clock := by
  unfold State.whenReady
  split
  · rfl
  · exact h

/-- A fold keeps the clock when each of its steps keeps it. -/
theorem State.foldl_clock {α : Type} (f : State → α → State) (h : ∀ u x, (f u x).clock = u.clock) (l : List α) (s : State) :
    (l.foldl f s).clock = s.clock :=
  List.foldlRecOn (motive := fun u : State => u.clock = s.clock) l f rfl fun u hu x _ => (h u x).trans hu

/-! Axis Units -/

@[simp] theorem State.enterHeld_clock (a : AxisId) (c : Cause) (x : Target) : (s.enterHeld a c x).clock = s.clock := by
  simp [State.enterHeld, State.tellHeld]
@[simp] theorem State.hold_clock (a : AxisId) (c : Cause) : (s.hold a c).clock = s.clock := by
  unfold State.hold
  repeat' split
  all_goals simp
@[simp] theorem State.takeSample_clock (a : AxisId) (chA chB : Bool) : (s.takeSample a chA chB).clock = s.clock := by
  simp [State.clock, State.takeSample]
@[simp] theorem State.count_clock (a : AxisId) (d : Dir) : (s.count a d).clock = s.clock := by
  unfold State.count
  repeat' split
  · rfl
  · simp
  · rfl
@[simp] theorem State.prescalerExpires_clock (a : AxisId) (d : Dir) : (s.prescalerExpires a d).clock = s.clock := by
  simp [State.prescalerExpires]
@[simp] theorem State.prescalerAdvances_clock (a : AxisId) : (s.prescalerAdvances a).clock = s.clock := by
  simp [State.clock, State.prescalerAdvances]
@[simp] theorem State.indexPreset_clock (a : AxisId) (g : AxisConfig) : (s.indexPreset a g).clock = s.clock := by
  unfold State.indexPreset
  dsimp only
  repeat' split
  all_goals simp [State.clock]
@[simp] theorem State.configureAxis_clock (a : AxisId) (g : AxisConfig) : (s.configureAxis a g).clock = s.clock := by
  unfold State.configureAxis
  dsimp only
  split <;> split <;> simp
@[simp] theorem State.resume_clock (a : AxisId) (x : Target) : (s.resume a x).clock = s.clock := by
  simp [State.clock, State.resume]

/-! Compare lists and the entry pool -/

@[simp] theorem State.release_clock (e : Entry) : (s.release e).clock = s.clock := by simp [State.clock]
@[simp] theorem State.retire_clock (e : Entry) : (s.retire e).clock = s.clock := by simp [State.clock]
@[simp] theorem State.releaseAll_clock (es : List Entry) : (s.releaseAll es).clock = s.clock :=
  State.foldl_clock _ (fun u e => u.release_clock e) es s
@[simp] theorem State.retireAll_clock (es : List Entry) : (s.retireAll es).clock = s.clock :=
  State.foldl_clock _ (fun u e => u.retire_clock e) es s
@[simp] theorem State.reportRetire_clock (e : Entry) (x : Reason) (pos : Int) (serial stamp : Nat) :
    (s.reportRetire e x pos serial stamp).clock = s.clock := by
  unfold State.reportRetire; split <;> simp [State.clock]
@[simp] theorem State.fire_clock (a : AxisId) (k : AxisKind) (e : Entry) (order : Option Nat) (f : FirePoint) (reports : Bool) :
    (s.fire a k e order f reports).clock = s.clock := by
  rw [(FiresOnly.fire s a k e order f reports).1]
  exact State.clock_eq rfl rfl rfl rfl rfl
@[simp] theorem State.takeListMsg_clock (a : AxisId) (m : ListMsg) : (s.takeListMsg a m).clock = s.clock := by
  rw [State.takeListMsg_frame]
  exact State.clock_eq rfl rfl rfl rfl rfl
@[simp] theorem State.takeCounts_clock (a : AxisId) : (s.takeCounts a).clock = s.clock := by
  rw [State.takeCounts_frame]
  exact State.clock_eq rfl rfl rfl rfl rfl
@[simp] theorem State.listBefore_clock (n : LineId) : (s.listBefore n).clock = s.clock := by
  rw [State.listBefore_frame]
  exact State.clock_eq rfl rfl rfl rfl rfl
@[simp] theorem State.allocate_clock (p : PairId) (e : Entry) : (s.allocate p e).clock = s.clock := by
  simp [State.clock, State.allocate]
@[simp] theorem State.insertArm_clock (p : PairId) (e : Entry) (pos : Int) (g : AxisConfig) :
    (s.insertArm p e pos g).clock = s.clock := by
  unfold State.insertArm
  dsimp only
  repeat' split
  all_goals simp
@[simp] theorem State.insertActivated_clock (a : AxisId) (w : Waiting) (origin : Int) (g : AxisConfig) :
    (s.insertActivated a w origin g).clock = s.clock := by
  unfold State.insertActivated
  dsimp only
  repeat' split
  all_goals simp
@[simp] theorem State.removeArmed_clock (a : AxisId) (reaches : Entry → Bool) : (s.removeArmed a reaches).clock = s.clock := by
  simp [State.removeArmed]
@[simp] theorem State.answer_clock (p : PairId) (b : Block) (n : Nat) : (s.answer p b n).clock = s.clock := by
  simp [State.clock, State.answer]
@[simp] theorem State.answerExcluded_clock (p : PairId) (b : Block) : (s.answerExcluded p b).clock = s.clock := by
  simp [State.clock, State.answerExcluded]

/-! Capture channels and lines -/

@[simp] theorem State.captureEdge_clock (c : ChanId) (g : ChanConfig) : (s.captureEdge c g).clock = s.clock := by
  have reported (u : State) (k : Capture) (n : Nat) (held unclaimed : Bool) :
      (u.reportCapture c g k n held unclaimed).clock = u.clock := by
    unfold State.reportCapture; split <;> simp [State.clock]
  unfold State.captureEdge State.afterLatch
  dsimp only
  repeat' split
  all_goals simp [reported]
@[simp] theorem State.takeLevel_clock (c : ChanId) (input : InputId) (level : Bool) :
    (s.takeLevel c input level).clock = s.clock := by
  simp [State.clock, State.takeLevel]
@[simp] theorem State.removeWaiting_clock (p : PairId) (c : ChanId) (reaches : Entry → Bool) (f : Channel → Channel) :
    (s.removeWaiting p c reaches f).clock = s.clock := by simp [State.removeWaiting]
@[simp] theorem State.configureChan_clock (p : PairId) (c : ChanId) (g : Option ChanConfig) (discard : Bool) :
    (s.configureChan p c g discard).clock = s.clock := by
  unfold State.configureChan
  dsimp only
  repeat' split
  all_goals simp
@[simp] theorem State.endTickPulse_clock (n : LineId) : (s.endTickPulse n).clock = s.clock := by
  unfold State.endTickPulse
  repeat' split
  all_goals simp [State.clock]
@[simp] theorem State.takeNotice_clock (n : LineId) (m : TripMsg) (rest : List TripMsg) :
    (s.takeNotice n m rest).clock = s.clock := by
  cases m with
  | trip => unfold State.takeNotice State.takeTrip; dsimp only; split <;> simp [State.clock]
  | release => rfl
@[simp] theorem State.settle_clock (q : QueryOf) : (s.settle q).clock = s.clock := by
  have taken (n : LineId) (k : Nat) : ∀ u : State, (u.takeNotices n k).clock = u.clock := by
    induction k with
    | zero => exact fun u => rfl
    | succ k ih =>
      intro u
      unfold State.takeNotices
      split
      · rw [ih, State.takeNotice_clock]
      · rfl
  unfold State.settle
  split
  · exact taken ..
  · rfl

/-! The Monitor Table -/

@[simp] theorem State.sendTrip_clock (k : SlotKind) : (s.sendTrip k).clock = s.clock := by cases k <;> rfl
@[simp] theorem State.takeCheck_clock (fb : Vector Bool 16) : (s.takeCheck fb).clock = s.clock := by
  unfold State.takeCheck
  split
  · exact State.foldl_clock _ State.sendTrip_clock _ _
  · rfl
@[simp] theorem State.sendRelease_clock (m : SlotId) : (s.sendRelease m).clock = s.clock := by
  unfold State.sendRelease; split <;> simp [State.clock]
@[simp] theorem State.setGlobal_clock (enable : Bool) (period : Nat) : (s.setGlobal enable period).clock = s.clock := by
  unfold State.setGlobal; dsimp only; split <;> simp [State.clock]

/-! The Ring Engine and the record processors -/

@[simp] theorem State.timeOut_clock (p : PairId) : (s.timeOut p).clock = s.clock := by
  rw [State.timeOut_frame]
  exact State.clock_eq rfl rfl rfl rfl rfl
@[simp] theorem State.setFault_clock (c : ErrorCause) : (s.setFault c).clock = s.clock := by
  have dropped (u : State) : u.dropSnapshot.clock = u.clock := by
    unfold State.dropSnapshot
    split
    · split
      · exact State.handAck_clock ..
      · rfl
    · rfl
  unfold State.setFault
  split
  · rfl
  · exact dropped _
@[simp] theorem State.setCause_clock (p : PairId) (c : ErrorCause) : (s.setCause p c).clock = s.clock := by
  unfold State.setCause; split <;> simp [State.clock, State.flushCq]
@[simp] theorem State.pairError_clock (p : PairId) (c : ErrorCause) : (s.pairError p c).clock = s.clock := by
  unfold State.pairError; split <;> simp
@[simp] theorem State.endRead_clock (p : PairId) : (s.endRead p).clock = s.clock := by
  simp [State.clock, State.endRead]
@[simp] theorem State.grant_clock (p : PairId) : (s.grant p).clock = s.clock := by
  simp [State.clock, State.grant]
@[simp] theorem State.takeRequest_clock (p : PairId) (r : CqRequest) : (s.takeRequest p r).clock = s.clock := by
  have accepted (u : State) : (u.acceptCq p r).clock = u.clock := rfl
  unfold State.takeRequest State.takeAck State.takeReport
  dsimp only
  repeat' split
  all_goals simp [accepted]
@[simp] theorem State.takeNotification_clock (n : Notice) : (s.takeNotification n).clock = s.clock := by
  unfold State.takeNotification
  repeat' split
  all_goals simp [State.clock, State.acceptNotice]
@[simp] theorem State.endWrite_clock : s.endWrite.clock = s.clock := by
  simp [State.clock, State.endWrite]
@[simp] theorem State.recordError_clock (ring : RingId) : (s.recordError ring).clock = s.clock := by
  cases ring with
  | cq p => simp [State.recordError]
  | nq => rfl
@[simp] theorem State.answerStatus_clock (w : QueuedWrite) (stale : Bool) : (s.answerStatus w stale).clock = s.clock := by
  have published (ring : RingId) (v : Nat) : (s.publish ring v).clock = s.clock := by cases ring <;> rfl
  unfold State.answerStatus
  repeat' split
  · exact published ..
  all_goals simp [State.clock]
@[simp] theorem State.setQuota_clock (p : PairId) (quota : Nat) : (s.setQuota p quota).clock = s.clock := by
  simp [State.clock, State.setQuota]
@[simp] theorem State.queueZeros_clock (p : PairId) : (s.queueZeros p).clock = s.clock := by
  simp [State.clock, State.queueZeros]
@[simp] theorem State.abortBarrier_clock (p : PairId) : (s.abortBarrier p).clock = s.clock := by
  unfold State.abortBarrier; split <;> simp
@[simp] theorem State.becomeAbsent_clock (p : PairId) : (s.becomeAbsent p).clock = s.clock := by
  simp [State.clock, State.becomeAbsent, State.setQuota, State.staleWhen, State.queueZeros]
@[simp] theorem State.startDiscard_clock (p : PairId) : (s.startDiscard p).clock = s.clock := by simp [State.startDiscard]
@[simp] theorem State.setNotices_clock (base : W64) (size : Nat) : (s.setNotices base size).clock = s.clock := by
  simp [State.clock, State.setNotices, State.staleWhen]
@[simp] theorem State.queueSnapshot_clock (q : QueryOf) (addr : W64) : (s.queueSnapshot q addr).clock = s.clock := by
  simp [State.clock, State.queueSnapshot]
@[simp] theorem State.endCancel_clock (p : PairId) (x : Removing) : (s.endCancel p x).clock = s.clock := by
  unfold State.endCancel; split <;> simp

/-! The register window -/

@[simp] theorem State.restartAdminSq_clock : s.restartAdminSq.clock = s.clock := by simp [State.restartAdminSq]
@[simp] theorem State.restartAdminCq_clock : s.restartAdminCq.clock = s.clock := by simp [State.clock, State.restartAdminCq]
@[simp] theorem State.failNoticeRing_clock : s.failNoticeRing.clock = s.clock := by simp [State.clock, State.failNoticeRing]
@[simp] theorem State.writeStatusBlockBase_clock (access : Access) (v : W64) :
    (s.writeStatusBlockBase access v).clock = s.clock := by
  unfold State.writeStatusBlockBase; split <;> simp [State.clock]
@[simp] theorem State.writeAdminSqBase_clock (access : Access) (v : W64) : (s.writeAdminSqBase access v).clock = s.clock := by
  unfold State.writeAdminSqBase; split <;> simp
@[simp] theorem State.writeAdminCqBase_clock (access : Access) (v : W64) : (s.writeAdminCqBase access v).clock = s.clock := by
  unfold State.writeAdminCqBase; split <;> simp
@[simp] theorem State.writeAdminSizes_clock (v : W32) : (s.writeAdminSizes v).clock = s.clock := by
  unfold State.writeAdminSizes; dsimp only; split <;> simp
@[simp] theorem State.writeSqPost_clock (p : PairId) (v : W32) : (s.writeSqPost p v).clock = s.clock := by
  unfold State.writeSqPost
  dsimp only
  repeat' split
  all_goals simp
@[simp] theorem State.writeCqDone_clock (p : PairId) (v : W32) : (s.writeCqDone p v).clock = s.clock := by
  unfold State.writeCqDone
  dsimp only
  repeat' split
  all_goals simp
@[simp] theorem State.writeNqDone_clock (v : W32) : (s.writeNqDone v).clock = s.clock := by
  unfold State.writeNqDone
  dsimp only
  repeat' split
  · rfl
  · rfl
  · simp
  · rfl
@[simp] theorem State.writeIrqMask_clock (v : W32) : (s.writeIrqMask v).clock = s.clock := by
  simp [State.clock, State.writeIrqMask]

/-- A write by offset keeps the clock, but for one of CONTROL that starts a soft reset (R143). -/
theorem State.writeRegister_clock (offset : BitVec 12) (v : W64) (h : (Instr.registerWrite offset v).isReset = false) :
    (s.writeRegister offset v).clock = s.clock := by
  have control (ho : offset.toNat = 0x010) : (s.writeControl (v.truncate 32)).clock = s.clock := by
    have : offset = 0x010 := BitVec.eq_of_toNat_eq ho
    have bit : (v.truncate 32).getLsbD 1 = false := by simpa [Instr.isReset, this] using h
    simp only [State.writeControl, bit]
    rfl
  have either {c : Prop} [Decidable c] {t u : State} (ht : c → t.clock = s.clock) (hu : u.clock = s.clock) :
      (if c then t else u).clock = s.clock := by
    by_cases h : c
    · rw [if_pos h, ht h]
    · rw [if_neg h, hu]
  exact either control <| either (fun _ => s.writeStatusBlockBase_clock ..) <|
    either (fun _ => s.writeStatusBlockBase_clock ..) <|
    either (fun _ => s.writeAdminSqBase_clock ..) <| either (fun _ => s.writeAdminSqBase_clock ..) <|
    either (fun _ => s.writeAdminCqBase_clock ..) <| either (fun _ => s.writeAdminCqBase_clock ..) <|
    either (fun _ => s.writeAdminSizes_clock _) <| either (fun _ => s.writeIrqMask_clock _) <|
    either (fun _ => s.writeSqPost_clock ..) <| either (fun _ => s.writeCqDone_clock ..) <|
    either (fun _ => s.writeNqDone_clock _) rfl

end

end Sys2Proof.Machine

namespace Sys2Proof

/-- A command that takes a tick or may start or end a reset (R1, R143). -/
def Instr.movesClock : Instr → Bool
  | .tick => true
  | .resetDone => true
  | c => c.isReset

end Sys2Proof

namespace Sys2Proof.Machine

/-- A command leaves the clock as it is when its next state has it so. -/
theorem clock_of_next {s t u : State} (h : (.next u : Host.Outcome State Fault Refusal) = .next t) (hu : u.clock = s.clock) :
    t.clock = s.clock := by
  cases h
  exact hu

/-- No command but a TICK, a reset and the end of a reset changes the timestamp, the reset in progress or the queue of waiting
commands. -/
theorem exec_clock (c : Instr) (s t : State) (hc : c.movesClock = false) (h : exec c s = .next t) : t.clock = s.clock := by
  cases c
  case tick => cases hc
  case fullReset => cases hc
  case softReset => cases hc
  case resetDone => cases hc
  case registerWrite offset v => exact clock_of_next h (s.whenReady_clock _ (s.writeRegister_clock offset v hc))
  case enableWrite => exact clock_of_next h (s.whenReady_clock _ rfl)
  case statusBlockBaseWrite | adminSqBaseWrite | adminCqBaseWrite | adminSizesWrite | sqPostWrite | cqDoneWrite | nqDoneWrite
      | irqMaskWrite =>
    exact clock_of_next h (s.whenReady_clock _ (by simp))
  case axisStart | axisStop | axisHalt | axisResume | axisSetPosition | axisHome | cancelAxis =>
    exact clock_of_next h (s.onAxis_clock _ _ _ fun p a g u => by
      repeat' split
      all_goals simp)
  case nop | armDeferred | cancel | lineWrite | setNoticeRing | axisConfig | captureConfig | monitorGlobal =>
    exact clock_of_next h (s.onRecord_clock _ _ _ fun p u => by
      repeat' split
      all_goals simp)
  case arm | barrier | createPair | deletePair | lineConfig | monitorConfig | monitorRelease =>
    exact clock_of_next h (s.onRecord_clock _ _ _ fun p u => by
      dsimp only
      repeat' split
      all_goals simp)
  case query fb =>
    exact clock_of_next h (s.onRecord_clock _ _ _ fun p u => by
      rw [State.setPhase_clock, State.queueSnapshot_clock, State.settle_clock]
      rfl)
  case holdInAssertAxis => exact clock_of_next h (by rw [State.hold_clock]; simp [State.clock])
  case holdInDeassertAxis | holdInAssertLine | holdInDeassertLine | inputReferenceUpdate =>
    exact clock_of_next h (by simp [State.clock])
  case pulseEndTick | checkEvent | barrierTimeout => exact clock_of_next h (by simp)
  case activationInsertion | removalAnswer =>
    refine clock_of_next h ?_
    dsimp only
    repeat' split
    all_goals simp
  case postNotice =>
    refine clock_of_next h ?_
    split
    · exact State.takeNotification_clock ..
    · rfl
  case writeIssue | recordWriteDone =>
    refine clock_of_next h ?_
    repeat' split
    all_goals rfl
  case countEvent | illegalTransition | prescalerExpiry | indexEdge | holdRequest | listFreeze | listUnfreeze
      | listCountEvent | lineFireAction | pulseEndCount | lineAxisStop | lineAxisHeld | lineAxisResumed | lineTripNotice
      | lineReleaseNotice | lineHostWrite | captureEdge | lockoutEnd | channelAxisConfig | allocation | insertion
      | append | listCancel | channelCancel | listCancelAxis | channelCancelAxis | listDiscardPair | channelDiscardPair
      | fetchGrant | fetchBusError | badKind | barrierReleaseNotice | drainEnd | discardComplete | queryWriteDone
      | postCompletion | recordWriteError | statusBlockWriteDone | statusBlockWriteError | prescalerAdvance
      | decoderReferenceUpdate | fetchReadDiscarded =>
    refine clock_of_next h ?_
    repeat' split
    all_goals simp

/-- What is taken before a tick keeps the clock (log 40). -/
@[simp] theorem State.takeDue_clock (s : State) : s.takeDue.clock = s.clock := by
  refine State.takeDue_keeps (fun u => u.clock = s.clock) (fun u a h => ?_) (fun u a m _ h _ => (u.takeListMsg_clock a m).trans h)
    (fun u n h => (u.endTickPulse_clock n).trans h) (fun u p h => (u.timeOut_clock p).trans h)
    (fun u fb h => (u.takeCheck_clock fb).trans h) s rfl
  rw [← h]
  unfold State.prescaleTick
  repeat' split
  all_goals simp

/-- A write by offset leaves the timestamp alone, also one that starts a soft reset (R2). -/
theorem State.writeRegister_ts (s : State) (offset : BitVec 12) (v : W64) : (s.writeRegister offset v).ts = s.ts := by
  cases h : (Instr.registerWrite offset v).isReset with
  | false => exact State.ts_of_clock (s.writeRegister_clock offset v h)
  | true =>
    obtain ⟨rfl, bit⟩ : offset = 0x010 ∧ v.getLsbD 1 = true := by simpa [Instr.isReset] using h
    have low : (v.truncate 32).getLsbD 1 = true := by simpa using bit
    have control : s.writeRegister 0x010 v = s.writeControl (v.truncate 32) := rfl
    rw [control, State.writeControl, if_pos low]
    rfl

/-- What a command makes of the timestamp: a TICK outside a full reset adds one to it, up to 2^64-1; a full reset makes it 0;
every other command leaves it (R1, R2). -/
theorem exec_ts (c : Instr) (s t : State) (h : exec c s = .next t) :
    t.ts = s.ts ∨ (c = .tick ∧ t.ts = min (2 ^ 64 - 1) (s.ts + 1)) ∨ ((∃ pins, c = .fullReset pins) ∧ t.ts = 0) := by
  cases hc : c.movesClock with
  | false => exact .inl (State.ts_of_clock (exec_clock c s t hc h))
  | true =>
    cases c
    case tick =>
      cases h
      split
      · exact .inl rfl
      · have : s.takeDue.ts = s.ts := State.ts_of_clock s.takeDue_clock
        exact .inr (.inl ⟨rfl, by simp [State.advanceTime, State.offerTick, satAdd, max64, this]⟩)
    case fullReset pins =>
      cases h
      exact .inr (.inr ⟨⟨pins, rfl⟩, rfl⟩)
    case softReset =>
      cases h
      unfold State.whenReady
      split <;> exact .inl rfl
    case resetDone =>
      cases h
      split <;> exact .inl rfl
    case registerWrite offset v =>
      cases h
      unfold State.whenReady
      split
      · exact .inl rfl
      · exact .inl (s.writeRegister_ts offset v)
    all_goals cases hc

/-- Settles O4, by what each command makes of the timestamp. -/
theorem timeNeverRunsBack : Obligations.TimeNeverRunsBack := by
  intro c s t hs h
  rcases exec_ts c s t h with same | ⟨_, up⟩ | ⟨⟨pins, hc⟩, zero⟩
  · rw [same]
    exact ⟨hs, fun _ => le_rfl⟩
  · rw [up]
    exact ⟨min_le_left _ _, fun _ => le_min hs (Nat.le_succ _)⟩
  · rw [zero]
    exact ⟨Nat.zero_le _, fun hr => absurd hc (hr pins)⟩

end Sys2Proof.Machine

namespace Sys2Proof.Machine

/-! ## Resets (R2, R166) -/

/-- No pending bit is set right after a reset (R160). -/
theorem State.cleared_irqPending (ts : Nat) (r : Option ResetCause) (c : ResetCause) (pins : Pins) (q : List Instr) :
    (State.cleared ts r c pins q).irqPending = 0 := by
  have bits : (State.cleared ts r c pins q).irqBits = List.replicate 11 false := by
    simp [State.irqBits, State.cleared, blankRing, Vector.toList_ofFn, blankAdmin, absentPair]
  rw [State.irqPending, bits]
  rfl

/-- A cleared part holds the reset values (R36, R54, R82, R102, R121, R141, R166). -/
theorem State.cleared_atResetValues (ts : Nat) (r : Option ResetCause) (c : ResetCause) (pins : Pins) (q : List Instr) :
    (State.cleared ts r c pins q).AtResetValues pins := by
  have pair (p : PairId) : (State.cleared ts r c pins q).pair p = if p = 0 then blankAdmin else absentPair := by
    simp [State.pair, State.cleared]
  refine ⟨fun a => ?_, fun a => ?_, ⟨rfl, fun p => ?_⟩, fun c => ?_, fun n => ?_, ⟨rfl, rfl, rfl⟩, fun m => ?_,
    ⟨rfl, rfl, rfl, rfl, State.cleared_irqPending .., ?_⟩, fun p => ?_, ⟨rfl, rfl, fun p hp => ?_⟩, rfl, ⟨rfl, rfl⟩, fun p => ?_,
    fun p => ?_, rfl, rfl, rfl⟩
  · simp [Axis.AtReset, State.axis, State.cleared, blankAxis, noCauses]
  · simp [CList.AtReset, State.clist, State.cleared, blankList]
  · simp [State.cleared, blankPool]
  · simp [Channel.AtReset, State.chan, State.cleared, blankChannel]
  · simp [Line.AtReset, State.line, State.cleared, blankLine]
  · simp [Slot.AtReset, State.slot, State.cleared, blankSlot]
  · simp [State.irqAsserted, State.cleared_irqPending]
  · rw [pair]
    split <;> simp [Pair.Zero, blankAdmin, absentPair]
  · rw [pair, if_neg hp]
    rfl
  · simp [State.proc, State.cleared]
  · simp [State.requests, State.cleared]

/-- Settles O5. -/
theorem resetsClearThePart : Obligations.ResetsClearThePart := by
  intro pins s
  refine ⟨⟨_, rfl, State.cleared_atResetValues .., rfl, rfl, rfl⟩, fun h => ?_, fun h => ?_, fun h => ?_, fun h => ?_,
    State.cleared_atResetValues .., rfl, rfl, rfl, rfl⟩
  · exact ⟨s.softReset pins, by simp [exec_softReset_eq, State.whenReady, h], State.cleared_atResetValues .., rfl, rfl, rfl, rfl⟩
  · simp [exec_resetDone_eq, State.resetEnds, h]
  · simp [exec_resetDone_eq, State.resetEnds, h]
  · simp [exec_resetDone_eq, State.resetEnds, h]

/-! ## What a record processor takes (R177, R180, R185) -/

/-- A removal is over with an answer taken exactly when no block has still to take it and no other answer waits (R177). -/
theorem Removing.take_done (x : Removing) (n stamp : Nat) (rest : List (Nat × Nat)) :
    (x.take n stamp rest).done = true ↔ x.todo = [] ∧ rest = [] := by
  simp [Removing.take, Removing.done]

/-- The processor takes the oldest release notice sent to its BARRIER (R179, R180). -/
theorem exec_barrierReleaseNotice (s : State) (p : PairId) (kd : Byte) (ck : W32) (b : BarrierWait) (g : Byte) (stamp : Nat)
    (rest : List (Byte × Nat)) (hp : s.proc p = .busy kd ck (.waiting b)) (hn : b.notices = (g, stamp) :: rest) :
    exec (.barrierReleaseNotice p) s = .next
      (if b.scope.fits g then
        if b.remaining ≤ 1 then s.withAck p kd ck .ok 0 stamp
        else { s with procs := s.procs.set p (.busy kd ck (.waiting { b with notices := rest, remaining := b.remaining - 1 })) }
      else { s with procs := s.procs.set p (.busy kd ck (.waiting { b with notices := rest })) }) := by
  simp only [exec_barrierReleaseNotice_eq, execBarrierReleaseNotice, hp, Proc.phase, hn, State.handAck_busy s p _ _ _ _ _ _ hp,
    State.setPhase_busy s p _ _ _ _ hp]

/-- A CANCEL takes an answer, and the last one ends it (R177). -/
theorem exec_removalAnswer_cancelling (s : State) (p : PairId) (kd : Byte) (ck : W32) (scope : CancelScope)
    (restrict : Option AxisId) (x : Removing) (n stamp : Nat) (rest : List (Nat × Nat))
    (hp : s.proc p = .busy kd ck (.cancelling scope restrict x))
    (ha : x.answers = (n, stamp) :: rest) :
    exec (.removalAnswer p) s = .next
      (if x.todo = [] ∧ rest = [] then
        if x.sum + n = 0 then s.withAck p kd ck .notFound 0 (max x.stamp stamp)
        else s.withAck p kd ck .ok (x.sum + n) (max x.stamp stamp)
      else { s with procs := s.procs.set p (.busy kd ck (.cancelling scope restrict (x.take n stamp rest))) }) := by
  simp only [exec_removalAnswer_eq, execRemovalAnswer, hp, Proc.phase, ha, State.endCancel, Removing.take_done,
    State.handAck_busy s p _ _ _ _ _ _ hp, State.setPhase_busy s p _ _ _ _ hp]
  rfl

/-- A CANCEL_AXIS takes an answer, and the last one ends it (R185). -/
theorem exec_removalAnswer_cancellingAxis (s : State) (p : PairId) (kd : Byte) (ck : W32) (a : AxisId) (x : Removing)
    (n stamp : Nat) (rest : List (Nat × Nat)) (hp : s.proc p = .busy kd ck (.cancellingAxis a x)) (ha : x.answers = (n, stamp) :: rest) :
    exec (.removalAnswer p) s = .next
      (if x.todo = [] ∧ rest = [] then s.withAck p kd ck .ok (x.sum + n) (max x.stamp stamp)
      else { s with procs := s.procs.set p (.busy kd ck (.cancellingAxis a (x.take n stamp rest))) }) := by
  simp only [exec_removalAnswer_eq, execRemovalAnswer, hp, Proc.phase, ha, Removing.take_done,
    State.handAck_busy s p _ _ _ _ _ _ hp, State.setPhase_busy s p _ _ _ _ hp]
  rfl

/-- A discard adds up its answers until DISCARD_COMPLETE (R151). -/
theorem exec_removalAnswer_discarding (s : State) (p : PairId) (kd : Byte) (ck : W32) (q : PairId) (z : Option Nat) (x : Removing)
    (n stamp : Nat) (rest : List (Nat × Nat)) (hp : s.proc p = .busy kd ck (.discarding q x z))
    (ha : x.answers = (n, stamp) :: rest) :
    exec (.removalAnswer p) s = .next
      { s with procs := s.procs.set p (.busy kd ck (.discarding q (x.take n stamp rest) z)) } := by
  simp only [exec_removalAnswer_eq, execRemovalAnswer, hp, Proc.phase, ha, State.setPhase_busy s p _ _ _ _ hp]

/-- Settles O56: the answers of a processor, one lemma for each phase it may be in. -/
theorem processorsTakeTheirAnswers : Obligations.ProcessorsTakeTheirAnswers := by
  intro s p kd ck
  refine ⟨fun b hb => ⟨fun g stamp rest hn => ?notice, fun he => ?expired, fun he => ?running⟩, fun x n stamp rest ha =>
    ⟨fun scope restrict hp => ⟨fun he => ?_, fun he => ?_⟩, fun a hp => ⟨fun he => ?_, fun he => ?_⟩, fun q z hp => ?_⟩⟩
  case notice =>
    rw [exec_barrierReleaseNotice s p kd ck b g stamp rest hb hn]
    cases b.scope.fits g <;> rfl
  case expired => simp [exec_barrierTimeout_eq, State.timeOut_waiting s p kd ck b hb, he]
  case running => simp [exec_barrierTimeout_eq, State.timeOut_waiting s p kd ck b hb, he]
  · rw [exec_removalAnswer_cancelling s p kd ck scope restrict x n stamp rest hp ha, if_pos he]
  · rw [exec_removalAnswer_cancelling s p kd ck scope restrict x n stamp rest hp ha, if_neg he]
    rfl
  · rw [exec_removalAnswer_cancellingAxis s p kd ck a x n stamp rest hp ha, if_pos he]
  · rw [exec_removalAnswer_cancellingAxis s p kd ck a x n stamp rest hp ha, if_neg he]
    rfl
  · exact exec_removalAnswer_discarding s p kd ck q z x n stamp rest hp ha

end Sys2Proof.Machine

namespace Sys2Proof.Machine

/-! ## One line changed -/

/-- Two changes of a line, one after the other, are one change. -/
theorem State.updLine_updLine (s : State) (n : LineId) (f g : Line → Line) :
    (s.updLine n f).updLine n g = s.updLine n fun l => g (f l) := by
  have line : (s.updLine n f).line n = f (s.line n) := by simp
  rw [State.updLine, line]
  simp [State.updLine]

/-- A change of a line depends on that line alone. -/
theorem State.updLine_congr (s : State) (n : LineId) (f g : Line → Line) (h : f (s.line n) = g (s.line n)) :
    s.updLine n f = s.updLine n g := by
  rw [State.updLine, h, State.updLine]

/-! ## The end of a pulse (R111, R112) -/

/-- The serials that come before the count event `k` at the head of the line's queue (log 45). -/
theorem Line.precedes_iff (l : Line) (k : Nat) (rest : List LineMsg) (hq : l.fromAxis = .count k :: rest) (j : Nat) :
    l.precedes j k = true ↔ j < k ∧ LineMsg.count j ∉ rest := by
  simp only [Line.precedes, hq, Bool.and_eq_true, decide_eq_true_eq, Bool.not_eq_true', List.contains_eq_mem,
    decide_eq_false_iff_not, List.mem_cons, LineMsg.count.injEq, not_or]
  exact ⟨fun ⟨h, _, hr⟩ => ⟨h, hr⟩, fun ⟨h, hr⟩ => ⟨h, Nat.ne_of_lt h, hr⟩⟩

/-- A line that is not PULSING takes a count event without a change of its state (R111). -/
theorem Line.countEnd_of_not_pulsing (l : Line) (k : Nat) (h : ∀ e, l.state ≠ .pulsing e) : l.countEnd k = l := by
  unfold Line.countEnd
  split
  · next e he => exact absurd he (h e)
  · rfl

/-- A count event at or past the end serial removes that end, and one below it does not (R111). -/
theorem Line.countEnd_of_serial (l : Line) (k z : Nat) (e : PulseEnds) (h : l.state = .pulsing e) (hz : e.serial = some z) :
    l.countEnd k = if z ≤ k then l.endPulse ⟨none, e.tick⟩ else l := by
  simp [Line.countEnd, h, hz]

/-- A pulse with no end serial takes a count event without a change of its state (R111). -/
theorem Line.countEnd_of_no_serial (l : Line) (k : Nat) (e : PulseEnds) (h : l.state = .pulsing e) (hz : e.serial = none) :
    l.countEnd k = l := by
  simp [Line.countEnd, h, hz]

/-- Taking the count event at the head of the queue. -/
theorem Line.takeAxisMsg_count (l : Line) (k : Nat) (rest : List LineMsg) (hq : l.fromAxis = .count k :: rest) :
    l.takeAxisMsg (.count k) = { l with fromAxis := rest }.countEnd k := by
  simp [Line.takeAxisMsg, hq]

/-- A count event that waits first at the line is taken after what the list of the axis takes before it (log 45). -/
theorem exec_pulseEndCount (s : State) (n : LineId) (k : Nat) (rest : List LineMsg)
    (hq : (s.line n).fromAxis = .count k :: rest) :
    exec (.pulseEndCount n) s = .next ((s.listBefore n).updLine n Line.takeCount) := by
  simp [exec_pulseEndCount_eq, execPulseEndCount, hq]

/-- The list of the line's axis has taken every count event before the count event `k` (log 45). -/
def State.Judged (s : State) (n : LineId) (k : Nat) : Prop :=
  ∀ a d, (s.line n).config = .compare a d → ∀ c, ListMsg.count c ∈ (s.clist a).inbox → (s.line n).precedes c.serial k = false

/-- Once the list has taken what comes before it, the line takes the count event alone. -/
theorem exec_pulseEndCount_of_judged (s : State) (n : LineId) (k : Nat) (rest : List LineMsg)
    (hq : (s.line n).fromAxis = .count k :: rest) (h : s.Judged n k) :
    exec (.pulseEndCount n) s = .next (s.updLine n Line.takeCount) := by
  rw [exec_pulseEndCount s n k rest hq, State.listBefore_none s n k rest hq h]

/-- The line takes its oldest fire action, whose count event waits behind no other message (R107). -/
theorem exec_lineFireAction_at_once (s : State) (n : LineId) (f : FireAction) (fs : List FireAction)
    (hf : (s.line n).fromList = f :: fs) (h : LineMsg.count f.serial ∉ (s.line n).fromAxis.tail) :
    exec (.lineFireAction n) s = .next (s.updLine n fun l => { l with fromList := fs }.act f) := by
  have taken : { s.line n with fromList := fs }.takeAction f = { s.line n with fromList := fs }.act f :=
    Line.takeAction_at_once _ f h
  simp [exec_lineFireAction_eq, execLineFireAction, hf, State.updLine, taken]

/-- A line takes a fire action that comes before its count event first, and the count event then finds the same state (log 45). -/
theorem exec_pulseEndCount_after_action (s t : State) (n : LineId) (k : Nat) (rest : List LineMsg)
    (hq : (s.line n).fromAxis = .count k :: rest) (hj : s.Judged n k) (f : FireAction) (fs : List FireAction)
    (hf : (s.line n).fromList = f :: fs) (he : (s.line n).precedes f.serial k = true)
    (ht : exec (.lineFireAction n) s = .next t) :
    exec (.pulseEndCount n) s = exec (.pulseEndCount n) t := by
  have behind : LineMsg.count f.serial ∉ (s.line n).fromAxis.tail := by
    rw [hq]
    exact ((Line.precedes_iff _ k rest hq _).1 he).2
  rw [exec_lineFireAction_at_once s n f fs hf behind] at ht
  cases ht
  have line : (s.updLine n fun l => { l with fromList := fs }.act f).line n = { s.line n with fromList := fs }.act f := by simp
  have config : ({ s.line n with fromList := fs }.act f).config = (s.line n).config := by rw [Line.act_frame]
  have queue : ({ s.line n with fromList := fs }.act f).fromAxis = (s.line n).fromAxis := by rw [Line.act_frame]
  have judged : (s.updLine n fun l => { l with fromList := fs }.act f).Judged n k := fun a d hc c hm => by
    rw [line, config] at hc
    rw [line, Line.precedes, queue]
    exact hj a d hc c hm
  rw [exec_pulseEndCount_of_judged s n k rest hq hj,
    exec_pulseEndCount_of_judged _ n k rest (by rw [line, queue, hq]) judged, State.updLine_updLine]
  exact congrArg _ (State.updLine_congr _ _ _ _ (Line.takeCount_cons _ k rest hq f fs hf he))

/-- The command by which a list takes a message (R57). -/
def ListMsg.command (a : AxisId) : ListMsg → Instr
  | .count _ => .listCountEvent a
  | .freeze => .listFreeze a
  | .unfreeze => .listUnfreeze a

/-- That command has the list take the first message of its inbox. -/
theorem exec_listMsg (s : State) (a : AxisId) (m : ListMsg) (ms : List ListMsg) (h : (s.clist a).inbox = m :: ms) :
    exec (m.command a) s = .next (s.takeListMsg a m) := by
  cases m <;> simp [ListMsg.command, exec_listCountEvent_eq, exec_listFreeze_eq, exec_listUnfreeze_eq,
    execListCountEvent, execListFreeze, execListUnfreeze, h]

/-- A tick at or past the end timestamp, offered since that was set, removes the end (R112). -/
theorem State.endTickPulse_pulsing (s : State) (n : LineId) (e : PulseEnds) (t : Nat) (h : (s.line n).state = .pulsing e)
    (ht : e.tick = some t) :
    s.endTickPulse n = if (s.line n).tick = true ∧ t ≤ s.ts then
      s.updLine n fun l => { l with tick := false }.endPulse ⟨e.serial, none⟩ else s := by
  simp [State.endTickPulse, h, ht]

/-- What a PULSING line makes of a count event that is taken alone (R111). -/
theorem Line.takeAxisMsg_count_pulsing (l : Line) (k : Nat) (rest : List LineMsg) (hq : l.fromAxis = .count k :: rest)
    (e : PulseEnds) (h : l.state = .pulsing e) :
    (∀ z, e.serial = some z → z ≤ k → e.tick = none →
      l.takeAxisMsg (.count k) = { l with fromAxis := rest, state := .inactive, tick := false }) ∧
    (∀ z t, e.serial = some z → z ≤ k → e.tick = some t →
      l.takeAxisMsg (.count k) = { l with fromAxis := rest, state := .pulsing ⟨none, some t⟩ }) ∧
    (∀ z, e.serial = some z → k < z → l.takeAxisMsg (.count k) = { l with fromAxis := rest }) ∧
    (e.serial = none → l.takeAxisMsg (.count k) = { l with fromAxis := rest }) := by
  rw [Line.takeAxisMsg_count l k rest hq]
  refine ⟨fun z hz hle ht => ?_, fun z t hz hle ht => ?_, fun z hz hlt => ?_, fun hz => ?_⟩
  · rw [Line.countEnd_of_serial { l with fromAxis := rest } k z e h hz, if_pos hle, ht]
    rfl
  · rw [Line.countEnd_of_serial { l with fromAxis := rest } k z e h hz, if_pos hle, ht]
    rfl
  · rw [Line.countEnd_of_serial { l with fromAxis := rest } k z e h hz, if_neg (Nat.not_le.2 hlt)]
  · rw [Line.countEnd_of_no_serial { l with fromAxis := rest } k e h hz]

/-- Settles O37: the line's queue holds its count event first; what comes before it is taken first, by the lemmas of log 45. -/
theorem pulsesEndWhenNoEndIsLeft : Obligations.PulsesEndWhenNoEndIsLeft := by
  intro s n k rest x l earlier judged leaves
  refine ⟨fun hq => ?_, fun e t he ht => ⟨fun hle htick => ?_, fun h => ?_⟩⟩
  · have precedes (j : Nat) : x.precedes j k = true ↔ earlier j := x.precedes_iff k rest hq j
    have not_precedes (j : Nat) (h : ¬earlier j) : x.precedes j k = false := by rwa [← precedes, Bool.not_eq_true] at h
    have judged_iff (hj : judged) : s.Judged n k := fun a d hc c hm => not_precedes _ (hj a d hc c hm)
    refine ⟨fun hj hf => ?alone, fun f fs t hj hf he ht => ?action, fun a d m ms t hc hi ⟨c, hcm, hce⟩ hm hfs ht => ?list⟩
    case alone =>
      have taken : exec (.pulseEndCount n) s = .next { s with lines := s.lines.set n (x.takeAxisMsg (.count k)) } := by
        rw [exec_pulseEndCount_of_judged s n k rest hq (judged_iff hj)]
        exact congrArg _ (State.updLine_congr s n _ (fun l => l.takeAxisMsg (.count k))
          (x.takeCount_none k rest hq fun f fs h => not_precedes _ (hf f fs h)))
      have leaves_of (st : LineState) (tick : Bool) (h : x.takeAxisMsg (.count k) = { l with state := st, tick := tick }) :
          leaves st tick := by
        rw [h] at taken
        exact taken
      refine ⟨taken, fun h => leaves_of _ _ ?_, fun e he => ?_⟩
      · rw [x.takeAxisMsg_count k rest hq, Line.countEnd_of_not_pulsing l k h]
      · obtain ⟨last, other, later, none⟩ := x.takeAxisMsg_count_pulsing k rest hq e he
        exact ⟨fun z hz hle ht => leaves_of _ _ (last z hz hle ht), fun z t hz hle ht => leaves_of _ _ (other z t hz hle ht),
          fun z hz hlt => leaves_of _ _ (later z hz hlt), fun hz => leaves_of _ _ (none hz)⟩
    case action => exact exec_pulseEndCount_after_action s t n k rest hq (judged_iff hj) f fs hf ((precedes _).2 he) ht
    case list =>
      have hm' : exec (m.command a) s = .next t := by cases m <;> exact ht
      rw [exec_listMsg s a m ms hi] at hm'
      cases hm'
      obtain ⟨same, queue⟩ := State.listBefore_cons s n k rest hq a d hc m ms hi ⟨c, hcm, (precedes _).2 hce⟩
        (fun c h => (hm c h).2) hfs
      rw [exec_pulseEndCount s n k rest hq, exec_pulseEndCount _ n k rest queue, same]
  · simp only [exec_pulseEndTick_eq, State.endTickPulse_pulsing s n e t he ht]
    rw [if_pos ⟨htick, hle⟩]
    cases hs : e.serial <;> simp [State.updLine, Line.endPulse, x]
  · simp only [exec_pulseEndTick_eq, State.endTickPulse_pulsing s n e t he ht]
    rw [if_neg fun ⟨htick, hle⟩ => h.elim (Nat.not_lt.2 hle) fun h => by rw [h] at htick; cases htick]

end Sys2Proof.Machine

namespace Sys2Proof.Machine

/-! ## Samples (R119, R127, R129) -/

/-- A line with no drive shows its driven level as its feedback, and no sample of it is present (log 41). -/
theorem Line.feedbackSample_disabled (l : Line) (fb : Bool) (h : l.config = .disabled) :
    l.feedbackSample fb = ⟨false, l.driven.toNat + 2 * l.driven.toNat + 4⟩ := by
  have drive : l.drive = none := by simp [Line.drive, h]
  simp [Line.feedbackSample, Line.feedbackLevel, drive, bitsNat]
  omega

/-- A HOST or COMPARE line samples its feedback level against its driven level (R119, R129). -/
theorem Line.feedbackSample_driven (l : Line) (fb : Bool) (d : Drive) (h : l.drive = some d) :
    l.feedbackSample fb =
      ⟨l.feedbackLevel fb != l.driven, l.driven.toNat + 2 * (l.feedbackLevel fb).toNat⟩ := by
  simp [Line.feedbackSample, h, bitsNat]

/-- The fields of a HOST or COMPARE line (R103). -/
theorem Line.drive_of_config (l : Line) (d : Drive) (h : l.config = .host d ∨ ∃ a, l.config = .compare a d) :
    l.drive = some d := by
  rcases h with h | ⟨a, h⟩ <;> simp [Line.drive, h]

/-! ## The judgement of one slot (R128, R130 to R133) -/

/-- The runs and the last sample of a slot after a check that judges it (R130). -/
theorem Slot.sampled_eq (m : Slot) (x : Sample) :
    m.sampled x = { m with
      presentRun := if x.present = true then min 255 (m.presentRun + 1) else 0
      absentRun := if x.present = true then 0 else min 255 (m.absentRun + 1)
      last := some x } := by
  unfold Slot.sampled
  cases x.present <;> rfl

/-- The table of states (R130): what a sampled slot becomes. -/
theorem Slot.moved_verdict (y : Slot) (g : SlotConfig) (present : Bool) :
    y.moved (y.verdict g present) = match y.state with
      | .off => y
      | .clear => if present = true then { y with state := if g.qualify ≤ 1 then .tripped else .pending } else y
      | .pending => { y with
          state := if present = true then (if g.qualify ≤ y.presentRun then .tripped else .pending) else .clear }
      | .tripped => match g.severity with
        | .warn r => if present = false ∧ r ≤ y.absentRun then { y with state := .clear, presentRun := 0, absentRun := 0 } else y
        | _ => y := by
  obtain ⟨config, state, presentRun, absentRun, last, opening⟩ := y
  cases state with
  | off => rfl
  | clear =>
    cases present
    · rfl
    · by_cases h : g.qualify ≤ 1 <;> simp [Slot.verdict, Slot.moved, h]
  | pending =>
    cases present
    · rfl
    · by_cases h : g.qualify ≤ presentRun <;> simp [Slot.verdict, Slot.moved, h]
  | tripped =>
    cases hs : g.severity with
    | warn r => by_cases h : present = false ∧ r ≤ absentRun <;> simp [Slot.verdict, Slot.moved, hs, h]
    | hold => simp [Slot.verdict, Slot.moved, hs]
    | latch => simp [Slot.verdict, Slot.moved, hs]

/-- A slot trips exactly when its check makes it TRIPPED and it was not (R131). -/
theorem Slot.verdict_trip_iff (y : Slot) (g : SlotConfig) (present : Bool) :
    y.verdict g present = .trip ↔ y.state ≠ .tripped ∧ (y.moved (y.verdict g present)).state = .tripped := by
  unfold Slot.verdict
  cases y.state with
  | off => simp [Slot.moved]
  | clear => cases present <;> by_cases h : g.qualify ≤ 1 <;> simp [Slot.moved, h]
  | pending => cases present <;> by_cases h : g.qualify ≤ y.presentRun <;> simp [Slot.moved, h]
  | tripped =>
    cases g.severity with
    | warn r => by_cases h : present = false ∧ r ≤ y.absentRun <;> simp [h]
    | hold => simp
    | latch => simp

/-- A slot recovers exactly when its check takes it out of TRIPPED (R133). -/
theorem Slot.verdict_recover_iff (y : Slot) (g : SlotConfig) (present : Bool) :
    y.verdict g present = .recover ↔ y.state = .tripped ∧ (y.moved (y.verdict g present)).state ≠ .tripped := by
  unfold Slot.verdict
  cases y.state with
  | off => simp
  | clear => cases present <;> by_cases h : g.qualify ≤ 1 <;> simp [h]
  | pending => cases present <;> by_cases h : g.qualify ≤ y.presentRun <;> simp [h]
  | tripped =>
    cases g.severity with
    | warn r => by_cases h : present = false ∧ r ≤ y.absentRun <;> simp [Slot.moved, h]
    | hold => simp [Slot.moved]
    | latch => simp [Slot.moved]

/-- Only an absent sample lets a slot recover (R133). -/
theorem Slot.present_of_recover (y : Slot) (g : SlotConfig) (present : Bool) (h : y.verdict g present = .recover) :
    present = false := by
  have tripped : y.state = .tripped := ((Slot.verdict_recover_iff y g present).1 h).1
  cases hs : g.severity <;> simp only [Slot.verdict, tripped, hs, reduceCtorEq] at h
  split at h
  · next c => exact c.1
  · cases h

/-! ## What a slot does at a check (R124, R128) -/

section
variable (s : State) (fb : Vector Bool 16) (m : SlotId)

/-- The slot as it is sampled on the sample of its kind (R124, R130). -/
def State.sampledSlot (g : SlotConfig) : Slot := (s.slot m).sampled (s.sample fb g.kind)

/-- The check makes the slot TRIPPED (R131). -/
def State.tripsAt : Bool := decide ((s.slot m).state ≠ .tripped) && decide ((s.checkedSlot fb m).state = .tripped)

/-- The check takes the slot out of TRIPPED (R133). -/
def State.recoversAt : Bool := decide ((s.slot m).state = .tripped) && decide ((s.checkedSlot fb m).state ≠ .tripped)

variable {s fb m}

/-- Sampling leaves the state of the table as it is (R130). -/
theorem State.sampledSlot_state (g : SlotConfig) : (s.sampledSlot fb m g).state = (s.slot m).state := by
  rw [State.sampledSlot, Slot.sampled_eq]

/-- A slot that is not OFF and not at its opening check is judged on the sample of its kind (R128). -/
theorem State.judgedOn_some {g : SlotConfig} (hg : (s.slot m).config = some g) (ho : (s.slot m).opening = false) :
    s.judgedOn fb m = some (g, s.sample fb g.kind) := by
  simp [State.judgedOn, hg, ho]

/-- A slot that is OFF or at its opening check is not judged (R128). -/
theorem State.judgedOn_none (h : (s.slot m).config = none ∨ (s.slot m).opening = true) : s.judgedOn fb m = none := by
  unfold State.judgedOn
  rcases h with h | h
  · rw [h]
  · split
    · rw [if_pos h]
    · rfl

/-- A judged slot makes the move that its verdict says (R130). -/
theorem State.checkedSlot_judged {g : SlotConfig} (hg : (s.slot m).config = some g) (ho : (s.slot m).opening = false) :
    s.checkedSlot fb m =
      (s.sampledSlot fb m g).moved ((s.sampledSlot fb m g).verdict g (s.sample fb g.kind).present) := by
  rw [State.checkedSlot, State.judgedOn_some hg ho]
  rfl

/-- A slot that is not judged has had its opening check (R128). -/
theorem State.checkedSlot_unjudged (h : (s.slot m).config = none ∨ (s.slot m).opening = true) :
    s.checkedSlot fb m = { s.slot m with opening := false } := by
  rw [State.checkedSlot, State.judgedOn_none h]

/-- The verdict on a judged slot (R130). -/
theorem State.checkVerdict_judged {g : SlotConfig} (hg : (s.slot m).config = some g) (ho : (s.slot m).opening = false) :
    s.checkVerdict fb m =
      some (g, s.sample fb g.kind, (s.sampledSlot fb m g).verdict g (s.sample fb g.kind).present) := by
  rw [State.checkVerdict, State.judgedOn_some hg ho]
  rfl

/-- There is no verdict on a slot that is not judged (R128). -/
theorem State.checkVerdict_unjudged (h : (s.slot m).config = none ∨ (s.slot m).opening = true) : s.checkVerdict fb m = none := by
  rw [State.checkVerdict, State.judgedOn_none h]
  rfl

/-- A slot that is not judged neither trips nor recovers. -/
theorem State.rests_of_unjudged (h : (s.slot m).config = none ∨ (s.slot m).opening = true) :
    s.tripsAt fb m = false ∧ s.recoversAt fb m = false := by
  unfold State.tripsAt State.recoversAt
  rw [State.checkedSlot_unjudged h]
  by_cases c : (s.slot m).state = .tripped <;> simp [c]

/-- A judged slot trips by its verdict. -/
theorem State.tripsAt_judged {g : SlotConfig} (hg : (s.slot m).config = some g) (ho : (s.slot m).opening = false) :
    s.tripsAt fb m = true ↔ (s.sampledSlot fb m g).verdict g (s.sample fb g.kind).present = .trip := by
  rw [Slot.verdict_trip_iff, ← State.checkedSlot_judged hg ho, State.sampledSlot_state]
  simp [State.tripsAt]

/-- A judged slot recovers by its verdict. -/
theorem State.recoversAt_judged {g : SlotConfig} (hg : (s.slot m).config = some g) (ho : (s.slot m).opening = false) :
    s.recoversAt fb m = true ↔ (s.sampledSlot fb m g).verdict g (s.sample fb g.kind).present = .recover := by
  rw [Slot.verdict_recover_iff, ← State.checkedSlot_judged hg ho, State.sampledSlot_state]
  simp [State.recoversAt]

/-- The kind of a slot whose trip sends a request: one of severity HOLD or LATCH that trips (R131). -/
theorem State.checkRequest_of_config {g : SlotConfig} (hg : (s.slot m).config = some g) :
    s.checkRequest fb m = if s.tripsAt fb m = true ∧ g.severity.holds = true then some g.kind else none := by
  unfold State.checkRequest
  cases ho : (s.slot m).opening with
  | true => rw [State.checkVerdict_unjudged (.inr ho), (State.rests_of_unjudged (.inr ho)).1]; simp
  | false =>
    have trips := State.tripsAt_judged (fb := fb) hg ho
    rw [State.checkVerdict_judged hg ho]
    cases hv : (s.sampledSlot fb m g).verdict g (s.sample fb g.kind).present <;> rw [hv] at trips <;> simp [trips]

/-- A slot that is OFF sends no request. -/
theorem State.checkRequest_of_off (hg : (s.slot m).config = none) : s.checkRequest fb m = none := by
  rw [State.checkRequest, State.checkVerdict_unjudged (.inl hg)]

/-- A slot that trips keeps the run with which it was judged (R138). -/
theorem State.presentRun_of_trips {g : SlotConfig} (hg : (s.slot m).config = some g) (ho : (s.slot m).opening = false)
    (h : (s.sampledSlot fb m g).verdict g (s.sample fb g.kind).present = .trip) :
    (s.checkedSlot fb m).presentRun = (s.sampledSlot fb m g).presentRun := by
  rw [State.checkedSlot_judged hg ho, h]
  rfl

/-- The notice of a slot at a check: one when it trips, another when it recovers (R138, R139). -/
theorem State.checkNotice_of_config {g : SlotConfig} (hg : (s.slot m).config = some g) :
    s.checkNotice fb m =
      if s.tripsAt fb m = true then some (.monitorTripped m g (s.sample fb g.kind).value (s.checkedSlot fb m).presentRun s.ts)
      else if s.recoversAt fb m = true then
        some (.monitorRecovered m g (s.sample fb g.kind).value (min 255 ((s.slot m).absentRun + 1)) s.ts)
      else none := by
  unfold State.checkNotice
  cases ho : (s.slot m).opening with
  | true =>
    obtain ⟨trips, recovers⟩ := State.rests_of_unjudged (fb := fb) (.inr ho)
    rw [State.checkVerdict_unjudged (.inr ho), trips, recovers]
    rfl
  | false =>
    have trips := State.tripsAt_judged (fb := fb) hg ho
    have recovers := State.recoversAt_judged (fb := fb) hg ho
    rw [State.checkVerdict_judged hg ho]
    cases hv : (s.sampledSlot fb m g).verdict g (s.sample fb g.kind).present with
    | rest st =>
      rw [hv] at trips recovers
      simp [trips, recovers]
    | trip =>
      rw [State.presentRun_of_trips hg ho hv, if_pos (trips.2 hv)]
      rfl
    | recover =>
      have absent := Slot.present_of_recover _ _ _ hv
      rw [hv] at trips recovers
      rw [if_neg (by simp [trips]), if_pos (recovers.2 rfl)]
      have run : ((s.slot m).sampled (s.sample fb g.kind)).absentRun = min 255 ((s.slot m).absentRun + 1) := by
        simp [Slot.sampled_eq, absent]
      exact congrArg (fun r => some (Notice.monitorRecovered m g _ r s.ts)) run

/-- A slot that is OFF hands no notice. -/
theorem State.checkNotice_of_off (hg : (s.slot m).config = none) : s.checkNotice fb m = none := by
  rw [State.checkNotice, State.checkVerdict_unjudged (.inl hg)]

end

/-! ## The requests of a check (R134) -/

/-- A hold request waits at the axis it is sent to (R134). -/
theorem State.sendHold_axis (s : State) (b a : AxisId) (c : Cause) :
    (s.sendHold b c).axis a = if b = a then { s.axis a with holdReqs := (s.axis a).holdReqs ++ [c] } else s.axis a := by
  rw [State.sendHold, State.updAxis_axis]
  by_cases h : b = a
  · subst h; rfl
  · rw [if_neg h, if_neg h]

/-- A notice of the Monitor Table waits at the line it is sent to (R134). -/
theorem State.tellTrip_line (s : State) (k n : LineId) (m : TripMsg) :
    (s.tellTrip k m).line n = if k = n then { s.line n with fromMonitor := (s.line n).fromMonitor ++ [m] } else s.line n := by
  rw [State.tellTrip, State.updLine_line]
  by_cases h : k = n
  · subst h; rfl
  · rw [if_neg h, if_neg h]

/-- The request of a trip waits at the axis that the slot names. -/
theorem State.sendTrip_axis (s : State) (k : SlotKind) (a : AxisId) :
    (s.sendTrip k).axis a =
      if k.axis = some a then { s.axis a with holdReqs := (s.axis a).holdReqs ++ [.trip] } else s.axis a := by
  cases k with
  | lineFeedback n => simp [State.sendTrip, SlotKind.axis]
  | _ => simp [State.sendTrip, SlotKind.axis, State.sendHold_axis]

/-- The notice of a trip waits at the line that the slot names. -/
theorem State.sendTrip_line (s : State) (k : SlotKind) (n : LineId) :
    (s.sendTrip k).line n =
      if k.line = some n then { s.line n with fromMonitor := (s.line n).fromMonitor ++ [.trip] } else s.line n := by
  cases k with
  | lineFeedback k => simp [State.sendTrip, SlotKind.line, State.tellTrip_line]
  | _ => simp [State.sendTrip, SlotKind.line]

/-- The requests of several trips change axes and lines alone. -/
theorem State.sendTrips_frame (ks : List SlotKind) (s : State) :
    ks.foldl State.sendTrip s = { s with
      axes := (ks.foldl State.sendTrip s).axes, lines := (ks.foldl State.sendTrip s).lines } := by
  have one (u : State) (k : SlotKind) : u.sendTrip k = { u with axes := (u.sendTrip k).axes, lines := (u.sendTrip k).lines } := by
    cases k <;> rfl
  induction ks generalizing s with
  | nil => rfl
  | cons k ks ih => rw [List.foldl_cons, ih, one s k]

/-- The requests of several trips wait at an axis, one for each slot that names it. -/
theorem State.sendTrips_axis (ks : List SlotKind) (s : State) (a : AxisId) :
    (ks.foldl State.sendTrip s).axis a = { s.axis a with
      holdReqs := (s.axis a).holdReqs ++ List.replicate (ks.countP fun k => k.axis == some a) .trip } := by
  induction ks generalizing s with
  | nil => simp
  | cons k ks ih =>
    rw [List.foldl_cons, ih, State.sendTrip_axis, List.countP_cons]
    by_cases h : k.axis = some a <;> simp [h, List.replicate_succ]

/-- The notices of several trips wait at a line, one for each slot that names it. -/
theorem State.sendTrips_line (ks : List SlotKind) (s : State) (n : LineId) :
    (ks.foldl State.sendTrip s).line n = { s.line n with
      fromMonitor := (s.line n).fromMonitor ++ List.replicate (ks.countP fun k => k.line == some n) .trip } := by
  induction ks generalizing s with
  | nil => simp
  | cons k ks ih =>
    rw [List.foldl_cons, ih, State.sendTrip_line, List.countP_cons]
    by_cases h : k.line = some n <;> simp [h, List.replicate_succ]

/-! ## The check as a whole (R124) -/

/-- An axis is watched when a configured slot names it. -/
theorem State.axisWatched_iff (s : State) (a : AxisId) :
    s.axisWatched a = true ↔ ∃ m g, (s.slot m).config = some g ∧ g.kind.axis = some a := by
  unfold State.axisWatched
  rw [List.any_eq_true]
  constructor
  · rintro ⟨x, hx, h⟩
    obtain ⟨i, hi, rfl⟩ := List.getElem_of_mem hx
    split at h
    · next g hg =>
      refine ⟨⟨i, by simpa using hi⟩, g, ?_, by simpa using h⟩
      simpa [State.slot] using hg
    · cases h
  · rintro ⟨m, g, hg, ha⟩
    refine ⟨s.slot m, by simp [State.slot], ?_⟩
    rw [hg]
    simpa using ha

/-- What the requests and notices of a check leave alone: of the part, slots, axes, lines, notices, the FB levels last presented and
the check deadline change (R124). -/
theorem State.check_frame (s : State) (fb : Vector Bool 16) (d : Nat) :
    s.check fb d = { s with
      slots := (s.check fb d).slots, axes := (s.check fb d).axes, lines := (s.check fb d).lines, nqReq := (s.check fb d).nqReq
      pins := { s.pins with fb := fb }
      monitor := { s.monitor with deadline := some (min (2 ^ 64 - 1) (d + 1000 * s.monitor.period)), expired := false } } := by
  unfold State.check
  dsimp only
  rw [State.sendTrips_frame]
  rfl

/-- Every slot is judged (R124, R130). -/
theorem State.check_slot (s : State) (fb : Vector Bool 16) (d : Nat) (m : SlotId) :
    (s.check fb d).slot m = s.checkedSlot fb m := by
  have judged := State.updSlots_slot s.readCounters m fun m _ => s.checkedSlot fb m
  rw [State.check, State.slot, State.sendTrips_frame]
  exact judged

/-- The counters of every watched axis are zeroed, and the requests of the trips wait there (R124, R134). -/
theorem State.check_axis (s : State) (fb : Vector Bool 16) (d : Nat) (a : AxisId) :
    (s.check fb d).axis a = { s.axis a with
      moved := if s.axisWatched a = true then 0 else (s.axis a).moved
      illegal := if s.axisWatched a = true then 0 else (s.axis a).illegal
      holdReqs := (s.axis a).holdReqs ++
        List.replicate ((s.checkRequests fb).countP fun k => k.axis == some a) .trip } := by
  have read : s.readCounters.axis a =
      if s.axisWatched a then { s.axis a with moved := 0, illegal := 0 } else s.axis a := State.updAxes_axis s a _
  have told : (s.check fb d).axis a = { s.readCounters.axis a with
      holdReqs := (s.readCounters.axis a).holdReqs ++
        List.replicate ((s.checkRequests fb).countP fun k => k.axis == some a) .trip } := State.sendTrips_axis _ _ a
  rw [told, read]
  cases s.axisWatched a <;> rfl

/-- The notices of the trips wait at the lines (R134). -/
theorem State.check_line (s : State) (fb : Vector Bool 16) (d : Nat) (n : LineId) :
    (s.check fb d).line n = { s.line n with
      fromMonitor := (s.line n).fromMonitor ++
        List.replicate ((s.checkRequests fb).countP fun k => k.line == some n) .trip } := by
  rw [State.check, State.sendTrips_line]
  rfl

/-- The notices are handed in slot order (R124). -/
theorem State.check_nqReq (s : State) (fb : Vector Bool 16) (d : Nat) : (s.check fb d).nqReq = s.nqReq ++ s.checkNotices fb := by
  rw [State.check, State.sendTrips_frame]
  rfl

/-- As many slots send a request of a sort as trip with severity HOLD or LATCH and are of that sort (R131, R134). -/
theorem State.checkRequests_countP (s : State) (fb : Vector Bool 16) (sort : SlotKind → Bool) :
    (s.checkRequests fb).countP sort = (List.finRange 24).countP fun m => s.tripsAt fb m && match (s.slot m).config with
      | some g => decide (g.severity = .hold ∨ g.severity = .latch) && sort g.kind
      | none => false := by
  have holds (x : Severity) : x.holds = decide (x = .hold ∨ x = .latch) := by cases x <;> rfl
  rw [State.checkRequests, List.countP_filterMap]
  refine List.countP_congr fun m _ => ?_
  cases hg : (s.slot m).config with
  | none => simp [State.checkRequest_of_off hg]
  | some g =>
    rw [State.checkRequest_of_config hg, holds]
    cases s.tripsAt fb m <;> by_cases h : g.severity = .hold ∨ g.severity = .latch <;> simp [h]

/-- The notices of a check, slot by slot (R138, R139). -/
theorem State.checkNotices_eq (s : State) (fb : Vector Bool 16) :
    s.checkNotices fb = (List.finRange 24).filterMap fun m => match (s.slot m).config with
      | some g =>
        if s.tripsAt fb m = true then some (.monitorTripped m g (s.sample fb g.kind).value (s.checkedSlot fb m).presentRun s.ts)
        else if s.recoversAt fb m = true
          then some (.monitorRecovered m g (s.sample fb g.kind).value (min 255 ((s.slot m).absentRun + 1)) s.ts)
        else none
      | none => none := by
  refine List.filterMap_congr fun m _ => ?_
  cases hg : (s.slot m).config with
  | none => exact State.checkNotice_of_off hg
  | some g => exact State.checkNotice_of_config hg

/-- A check event before the deadline has expired changes nothing (R124). -/
theorem exec_checkEvent_early (s : State) (fb : Vector Bool 16)
    (h : s.monitor.deadline = none ∨ s.monitor.enable = false ∨ s.monitor.expired = false) :
    exec (.checkEvent fb) s = .next s := by
  have : s.takeCheck fb = s := s.takeCheck_none fb fun enable deadline => by
    rcases h with h | h | h
    · exact absurd h deadline
    · rw [h] at enable; cases enable
    · exact h
  simp [exec_checkEvent_eq, this]

/-- A check event after the expiry of the deadline is the check of that deadline (R124). -/
theorem exec_checkEvent_due (s : State) (fb : Vector Bool 16) (d : Nat) (hd : s.monitor.deadline = some d)
    (he : s.monitor.enable = true) (hx : s.monitor.expired = true) : exec (.checkEvent fb) s = .next (s.check fb d) := by
  simp [exec_checkEvent_eq, State.takeCheck, State.checkDue, hd, he, hx]

/-- The table of states (R128, R130): what a check makes of a slot. -/
theorem State.checkedSlot_table (s : State) (fb : Vector Bool 16) (m : SlotId) (g : SlotConfig) (hg : (s.slot m).config = some g)
    (ho : (s.slot m).opening = false) :
    let x := s.sample fb g.kind
    s.checkedSlot fb m =
      let y : Slot := { s.slot m with
        presentRun := if x.present = true then min 255 ((s.slot m).presentRun + 1) else 0
        absentRun := if x.present = true then 0 else min 255 ((s.slot m).absentRun + 1)
        last := some x }
      y.moved (y.verdict g x.present) := by
  dsimp only
  rw [State.checkedSlot_judged hg ho, State.sampledSlot, Slot.sampled_eq]

/-- Settles O46: the samples, the table of states slot by slot, and the requests and notices counted over the slots. -/
theorem checkEventJudgesEverySlot : Obligations.CheckEventJudgesEverySlot := by
  intro s fb
  refine ⟨exec_checkEvent_early s fb, ⟨fun a z => ?overspeed, fun a z => ?quadError, fun a => ?spacing, fun n => ?feedback⟩,
    fun d hd he hx => ⟨s.check fb d, exec_checkEvent_due s fb d hd he hx, s.check_frame fb d, fun m => ?slot, ?sent⟩⟩
  case overspeed => exact ⟨by simp [State.sample, Axis.overspeed], rfl⟩
  case quadError => exact ⟨by simp [State.sample, Axis.quadError], rfl⟩
  case spacing => exact ⟨Iff.rfl, by cases h : (s.axis a).spacingError <;> simp [State.sample, Axis.indexSpacing, h]⟩
  case feedback =>
    refine ⟨fun hl => ?_, fun d hl => ?_⟩
    · simp [State.sample, Line.feedbackSample_disabled _ _ hl]
    · have drive := (s.line n).drive_of_config d hl
      have sample : s.sample fb (.lineFeedback n) = _ := (s.line n).feedbackSample_driven fb[n] d drive
      rw [sample, Line.feedbackLevel, drive]
      refine ⟨fun hf => ?_, fun hf => ?_, fun hf => ?_⟩
      · simp [hf]
      · simp [hf, Polarity.through]
      · simp [hf, Polarity.through]
  case slot =>
    rw [State.check_slot]
    cases hg : (s.slot m).config with
    | none => exact State.checkedSlot_unjudged (.inl hg)
    | some g =>
      cases ho : (s.slot m).opening with
      | true => exact State.checkedSlot_unjudged (.inr ho)
      | false => exact (s.checkedSlot_table fb m g hg ho).trans (Slot.moved_verdict _ g _)
  case sent =>
    intro trips recovers sends
    have trips_eq (m : SlotId) : trips m = s.tripsAt fb m := by simp only [trips, State.check_slot, State.tripsAt]
    have recovers_eq (m : SlotId) : recovers m = s.recoversAt fb m := by simp only [recovers, State.check_slot, State.recoversAt]
    have sent (sort : SlotKind → Bool) :
        (s.checkRequests fb).countP sort = (List.finRange 24).countP fun m => sends m sort :=
      (s.checkRequests_countP fb sort).trans
        (congrArg (fun p => (List.finRange 24).countP p) (funext fun m => congrArg (fun b => b && _) (trips_eq m).symm))
    refine ⟨fun a => ?_, fun n => ?_, s.axisWatched_iff, fun a n z => ⟨rfl, rfl, rfl, rfl, rfl, rfl, rfl, rfl⟩, ?_⟩
    · rw [State.check_axis, sent]
    · rw [State.check_line, sent]
    · rw [State.check_nqReq, State.checkNotices_eq]
      refine congrArg (s.nqReq ++ ·) (List.filterMap_congr fun m _ => ?_)
      cases (s.slot m).config with
      | none => rfl
      | some g => simp only [trips_eq, recovers_eq, State.check_slot]

end Sys2Proof.Machine

namespace Sys2Proof.Machine

/-! ## The offer of a tick (R1, R5, R7) -/

/-- A line to which a tick is offered keeps it while it holds an end timestamp (R5). -/
theorem Line.offered_eq (l : Line) : (if l.tickEnd.isSome then { l with tick := true } else l) = match l.state with
    | .pulsing e => if e.tick ≠ none then { l with tick := true } else l
    | _ => l := by
  unfold Line.tickEnd
  cases l.state with
  | pulsing e => cases h : e.tick <;> simp [h]
  | _ => rfl

/-- A BARRIER to which a tick is offered expires when the tick is at or past its deadline (R5). -/
theorem Proc.offerTick_eq (x : Proc) (now : Nat) : x.offerTick now = match x with
    | .busy k c (.waiting b) => .busy k c (.waiting { b with expired := b.expired || match b.deadline with
        | some d => decide (d ≤ now)
        | none => false })
    | x => x := by
  cases x with
  | idle => rfl
  | busy k c ph => cases ph <;> rfl

/-- The timestamp rises, and the tick is offered to axes, lines, processors and the Monitor Table (R1, R7). -/
theorem State.advanceTime_eq (s : State) :
    s.advanceTime = { s with
      ts := min (2 ^ 64 - 1) (s.ts + 1)
      resetTick := true
      axes := Vector.ofFn fun a => if (s.axis a).prescales = true then { s.axis a with tick := true } else s.axis a
      lines := Vector.ofFn fun n => if (s.line n).tickEnd.isSome then { s.line n with tick := true } else s.line n
      procs := Vector.ofFn fun p => (s.proc p).offerTick (min (2 ^ 64 - 1) (s.ts + 1))
      monitor := { s.monitor with expired := expiresAt s.monitor.expired s.monitor.deadline (min (2 ^ 64 - 1) (s.ts + 1)) } } :=
  rfl

/-! ## Holds and counts change one axis (R19, R26) -/

/-- A hold changes its axis alone, and no tick that waits there (R26). -/
theorem State.hold_axis (s : State) (a : AxisId) (c : Cause) :
    ((s.hold a c).axis a).tick = (s.axis a).tick ∧ ∀ b, b ≠ a → (s.hold a c).axis b = s.axis b := by
  have other {b : AxisId} (h : b ≠ a) (f : Axis → Axis) : (s.updAxis a f).axis b = s.axis b := by simp [h.symm]
  have entered (x : Target) : ((s.enterHeld a c x).axis a).tick = (s.axis a).tick ∧
      ∀ b, b ≠ a → (s.enterHeld a c x).axis b = s.axis b := by
    unfold State.enterHeld State.tellHeld
    exact ⟨by simp, fun b h => by simp [h.symm]⟩
  unfold State.hold
  split
  · exact ⟨rfl, fun _ _ => rfl⟩
  · exact entered _
  · exact entered _
  · split
    · exact ⟨rfl, fun _ _ => rfl⟩
    · exact ⟨by simp, fun b h => by simp [h.symm]⟩

/-- A count changes its axis alone, and no tick that waits there (R19, R20). -/
theorem State.count_axis (s : State) (a : AxisId) (d : Dir) :
    ((s.count a d).axis a).tick = (s.axis a).tick ∧ ∀ b, b ≠ a → (s.count a d).axis b = s.axis b := by
  unfold State.count
  split
  · exact ⟨rfl, fun _ _ => rfl⟩
  · split
    · exact s.hold_axis a .overflow
    · unfold State.tellCount
      exact ⟨by simp [Axis.counted], fun b h => by simp [h.symm]⟩

/-- A hold leaves the pins alone. -/
theorem State.hold_pins (s : State) (a : AxisId) (c : Cause) : (s.hold a c).pins = s.pins := by
  unfold State.hold State.enterHeld State.tellHeld
  repeat' split
  all_goals simp

/-- A count leaves the pins alone. -/
theorem State.count_pins (s : State) (a : AxisId) (d : Dir) : (s.count a d).pins = s.pins := by
  unfold State.count State.tellCount
  split
  · rfl
  · split
    · exact s.hold_pins a .overflow
    · simp

/-! ## The prescalers (R18) -/

/-- An axis that prescales and to which a tick has been offered takes it (R18). -/
theorem Axis.prescale_isSome (x : Axis) : x.prescale.isSome = (x.prescales && x.tick) := by
  unfold Axis.prescale Axis.prescales
  cases x.config with
  | none => rfl
  | some g =>
    dsimp only
    cases g.source with
    | timebase p d => cases x.counting <;> cases x.tick <;> rfl
    | _ => rfl

/-- A tick that expires a prescaler is taken at its axis, and no other axis changes (R18). -/
theorem State.prescalerExpires_axis (s : State) (a : AxisId) (d : Dir) :
    ((s.prescalerExpires a d).axis a).tick = false ∧ ∀ b, b ≠ a → (s.prescalerExpires a d).axis b = s.axis b := by
  obtain ⟨tick, other⟩ := State.count_axis (s.updAxis a fun x => { x with prescaler := 0, tick := false }) a d
  exact ⟨tick.trans (by simp), fun b h => (other b h).trans (by simp [h.symm])⟩

/-- Taking its tick leaves an axis that prescales none to take, and changes no other axis (R18). -/
theorem State.prescaleTick_axis (s : State) (a : AxisId) :
    (((s.prescaleTick a).axis a).prescales = true → ((s.prescaleTick a).axis a).tick = false) ∧
      ∀ b, b ≠ a → (s.prescaleTick a).axis b = s.axis b := by
  unfold State.prescaleTick
  cases h : (s.axis a).prescale with
  | none =>
    have waits := (s.axis a).prescale_isSome
    rw [h] at waits
    exact ⟨fun hp => by simpa [hp] using waits.symm, fun _ _ => rfl⟩
  | some pd =>
    dsimp only
    split
    · obtain ⟨tick, other⟩ := s.prescalerExpires_axis a pd.2
      exact ⟨fun _ => tick, other⟩
    · unfold State.prescalerAdvances
      exact ⟨fun _ => by simp, fun b h => by simp [h.symm]⟩

/-- Taking its tick leaves the pins alone. -/
theorem State.prescaleTick_pins (s : State) (a : AxisId) : (s.prescaleTick a).pins = s.pins := by
  unfold State.prescaleTick
  repeat' split
  · exact State.count_pins _ _ _
  · rfl
  · rfl

/-! ## The blocks take what waits, one after another (log 40) -/

/-- A fold over blocks, each step of which establishes a property of its own block and keeps it for the others, establishes it for
all of them. -/
theorem foldl_establishes {α ι : Type} (f : α → ι → α) (Q : ι → α → Prop) (sets : ∀ u i, Q i (f u i))
    (keeps : ∀ u i j, Q i u → Q i (f u j)) (l : List ι) (u : α) : ∀ i ∈ l, Q i (l.foldl f u) := by
  induction l generalizing u with
  | nil => exact fun i hi => absurd hi List.not_mem_nil
  | cons j l ih =>
    intro i hi
    rcases List.mem_cons.1 hi with rfl | hi
    · exact List.foldlRecOn l f (sets u i) fun v hv k _ => keeps v i k hv
    · exact ih (f u j) i hi

section
variable (s : State)

/-- The state once every Axis Unit has taken its tick (R18). -/
def State.prescaled : State := (List.finRange 4).foldl State.prescaleTick s

/-- The state once every list has then taken its count events (R19). -/
def State.crossed : State := (List.finRange 4).foldl State.takeCounts s.prescaled

/-- The state once every line has then taken the end of its pulse (R112). -/
def State.ended : State := (List.finRange 16).foldl State.endTickPulse s.crossed

/-- The state once every processor has then taken the expiry of its BARRIER (R180). -/
def State.timed : State := s.ended.timeOutAll

/-- The check is what is taken last (R124). -/
theorem State.takeDue_eq : s.takeDue = s.timed.takeCheck s.timed.pins.fb := by
  rw [State.takeDue, State.timed, State.ended, State.crossed, State.prescaled]

/-- The Axis Units take their ticks without a change of the pins. -/
theorem State.prescaled_pins : s.prescaled.pins = s.pins :=
  List.foldlRecOn (motive := fun u : State => u.pins = s.pins) _ _ rfl fun u h a _ => (u.prescaleTick_pins a).trans h

/-- The lists take their count events without a change of the axes or the pins. -/
theorem State.crossed_frame : s.crossed.axes = s.prescaled.axes ∧ s.crossed.pins = s.prescaled.pins := by
  refine List.foldlRecOn (motive := fun u : State => u.axes = s.prescaled.axes ∧ u.pins = s.prescaled.pins) _ _ ⟨rfl, rfl⟩
    fun u h a _ => ?_
  rw [State.takeCounts_frame]
  exact h

/-- The end of a pulse changes lines alone. -/
theorem State.endTickPulse_frame (n : LineId) : s.endTickPulse n = { s with lines := (s.endTickPulse n).lines } := by
  unfold State.endTickPulse
  repeat' split
  all_goals rfl

/-- The lines end their pulses without a change of the axes, the lists or the pins. -/
theorem State.ended_frame :
    s.ended.axes = s.crossed.axes ∧ s.ended.lists = s.crossed.lists ∧ s.ended.pins = s.crossed.pins := by
  refine List.foldlRecOn
    (motive := fun u : State => u.axes = s.crossed.axes ∧ u.lists = s.crossed.lists ∧ u.pins = s.crossed.pins) _ _
    ⟨rfl, rfl, rfl⟩ fun u h n _ => ?_
  rw [State.endTickPulse_frame]
  exact h

/-- The processors take their expiries without a change of the axes, the lists, the lines, the timestamp or the pins. -/
theorem State.timeOutAll_fields : s.timeOutAll.axes = s.axes ∧ s.timeOutAll.lists = s.lists ∧ s.timeOutAll.lines = s.lines ∧
    s.timeOutAll.ts = s.ts ∧ s.timeOutAll.pins = s.pins := by
  rw [State.timeOutAll_frame]
  exact ⟨rfl, rfl, rfl, rfl, rfl⟩

/-- What is taken before the check leaves the pins alone. -/
theorem State.timed_pins : s.timed.pins = s.pins := by
  obtain ⟨-, -, -, -, timed⟩ := s.ended.timeOutAll_fields
  obtain ⟨-, -, ended⟩ := s.ended_frame
  rw [State.timed, timed, ended, s.crossed_frame.2, s.prescaled_pins]

end

/-! ## Afterwards nothing is due (log 40) -/

section
variable (s : State)

/-- No tick waits at an axis that prescales (R18). -/
def State.AxesDone : Prop := ∀ a, (s.axis a).prescales = true → (s.axis a).tick = false

/-- No count event waits at a list (R19). -/
def State.ListsDone : Prop := ∀ a k, ListMsg.count k ∉ (s.clist a).inbox

/-- No line waits for a tick that has reached its end timestamp (R112). -/
def State.LinesDone : Prop :=
  ∀ n e t, (s.line n).state = .pulsing e → e.tick = some t → t ≤ s.ts → (s.line n).tick = false

/-- No BARRIER has an expiry to take (R180). -/
def State.ProcsDone : Prop := ∀ p kd ck b, s.proc p = .busy kd ck (.waiting b) → b.expired = false

/-- Once every Axis Unit has taken its tick, none waits (R18). -/
theorem State.prescaled_axesDone : s.prescaled.AxesDone := fun a =>
  foldl_establishes State.prescaleTick (fun a u => (u.axis a).prescales = true → (u.axis a).tick = false)
    (fun u a => (u.prescaleTick_axis a).1)
    (fun u a b h => by
      by_cases e : a = b
      · subst e; exact (u.prescaleTick_axis a).1
      · rw [(u.prescaleTick_axis b).2 a e]; exact h)
    _ s a (List.mem_finRange a)

/-- Once every list has taken its count events, none waits (R19). -/
theorem State.crossed_listsDone : s.crossed.ListsDone := fun a =>
  foldl_establishes State.takeCounts (fun a u => ∀ k, ListMsg.count k ∉ (u.clist a).inbox)
    (fun u a k => u.takeCounts_done a k)
    (fun u a b h k => by
      by_cases e : b = a
      · subst e; exact u.takeCounts_done b k
      · rw [State.takeCounts_inbox, if_neg e]; exact h k)
    _ s.prescaled a (List.mem_finRange a)

/-- Taking a tick at a line changes no other line (R112). -/
theorem State.endTickPulse_line_other (n k : LineId) (h : n ≠ k) : (s.endTickPulse n).line k = s.line k := by
  unfold State.endTickPulse
  repeat' split
  · simp [h]
  all_goals rfl

/-- A line that has taken what a tick ends waits for no end that the tick has reached (R112). -/
theorem State.endTickPulse_done (n : LineId) (e : PulseEnds) (t : Nat) (hs : ((s.endTickPulse n).line n).state = .pulsing e)
    (ht : e.tick = some t) (hle : t ≤ (s.endTickPulse n).ts) : ((s.endTickPulse n).line n).tick = false := by
  by_cases h : ∃ e t, (s.line n).state = .pulsing e ∧ e.tick = some t
  · obtain ⟨e', t', hs', ht'⟩ := h
    rw [State.endTickPulse_pulsing s n e' t' hs' ht'] at hs hle ⊢
    by_cases reached : (s.line n).tick = true ∧ t' ≤ s.ts
    · rw [if_pos reached, State.updLine_line, if_pos rfl]
      unfold Line.endPulse
      split <;> rfl
    · rw [if_neg reached] at hs hle ⊢
      cases hs'.symm.trans hs
      cases ht'.symm.trans ht
      simpa [hle] using reached
  · have same : s.endTickPulse n = s := s.endTickPulse_none n fun e t hs ht => absurd ⟨e, t, hs, ht⟩ h
    rw [same] at hs
    exact absurd ⟨e, t, hs, ht⟩ h

/-- Once every line has taken the end of its pulse, none waits (R112). -/
theorem State.ended_linesDone : s.ended.LinesDone := fun n =>
  foldl_establishes State.endTickPulse
    (fun n u => ∀ e t, (u.line n).state = .pulsing e → e.tick = some t → t ≤ u.ts → (u.line n).tick = false)
    (fun u n => u.endTickPulse_done n)
    (fun u n k h => by
      by_cases e : k = n
      · subst e; exact u.endTickPulse_done k
      · rw [u.endTickPulse_line_other k n e, State.ts_of_clock (u.endTickPulse_clock k)]; exact h)
    _ s.crossed n (List.mem_finRange n)

/-- A processor that has taken the expiry that waits for it has none to take (R180). -/
theorem State.timeOut_done (p : PairId) (kd : Byte) (ck : W32) (b : BarrierWait)
    (h : (s.timeOut p).proc p = .busy kd ck (.waiting b)) : b.expired = false := by
  by_cases waits : ∃ k c w, s.proc p = .busy k c (.waiting w)
  · obtain ⟨k, c, w, hw⟩ := waits
    rw [State.timeOut_waiting s p k c w hw] at h
    split at h
    · simp [State.withAck, State.proc] at h
    · next hx =>
      cases hw.symm.trans h
      simpa using hx
  · rw [State.timeOut_other s p fun k c w e => waits ⟨k, c, w, e⟩] at h
    exact absurd ⟨kd, ck, b, h⟩ waits

/-- Once every processor has taken its expiry, none waits (R180). -/
theorem State.timed_procsDone : s.timed.ProcsDone := fun p kd ck b h => by
  rw [State.timed, State.timeOutAll_proc] at h
  exact s.ended.timeOut_done p kd ck b h

/-- With the check taken as well, nothing is due. -/
theorem State.takeCheck_nothingDue (fb : Vector Bool 16) (axes : s.AxesDone) (lists : s.ListsDone) (lines : s.LinesDone)
    (procs : s.ProcsDone) : (s.takeCheck fb).NothingDue := by
  unfold State.takeCheck
  cases hd : s.checkDue with
  | none =>
    refine ⟨axes, lists, lines, procs, fun enable deadline => ?_⟩
    cases hx : s.monitor.expired with
    | false => rfl
    | true => exact absurd (by simpa [State.checkDue, enable, hx] using hd) deadline
  | some d =>
    have ts : (s.check fb d).ts = s.ts := by rw [State.check_frame]
    have clist (a : AxisId) : (s.check fb d).clist a = s.clist a := by rw [State.check_frame]; rfl
    have proc (p : PairId) : (s.check fb d).proc p = s.proc p := by rw [State.check_frame]; rfl
    have expired : (s.check fb d).monitor.expired = false := by rw [State.check_frame]
    refine ⟨fun a => ?_, fun a => ?_, fun n => ?_, fun p => ?_, fun _ _ => expired⟩
    · rw [State.check_axis]
      exact axes a
    · rw [clist]
      exact lists a
    · rw [State.check_line, ts]
      exact lines n
    · rw [proc]
      exact procs p

/-- Once what is due has been taken, nothing is due (log 40). -/
theorem State.takeDue_nothingDue : s.takeDue.NothingDue := by
  obtain ⟨timedAxes, timedLists, timedLines, timedTs, -⟩ := s.ended.timeOutAll_fields
  obtain ⟨endedAxes, endedLists, -⟩ := s.ended_frame
  have axes : s.timed.axes = s.prescaled.axes := timedAxes.trans (endedAxes.trans s.crossed_frame.1)
  have lists : s.timed.lists = s.crossed.lists := timedLists.trans endedLists
  have axis (a : AxisId) : s.timed.axis a = s.prescaled.axis a := by rw [State.axis, State.axis, axes]
  have clist (a : AxisId) : s.timed.clist a = s.crossed.clist a := by rw [State.clist, State.clist, lists]
  have line (n : LineId) : s.timed.line n = s.ended.line n := by rw [State.line, State.line, State.timed, timedLines]
  have ts : s.timed.ts = s.ended.ts := timedTs
  rw [State.takeDue_eq]
  refine State.takeCheck_nothingDue _ _ (fun a => ?_) (fun a => ?_) (fun n => ?_) s.timed_procsDone
  · rw [axis]
    exact s.prescaled_axesDone a
  · rw [clist]
    exact s.crossed_listsDone a
  · rw [line, ts]
    exact s.ended_linesDone n

/-- When nothing is due, nothing is taken (log 40). -/
theorem State.takeDue_of_nothingDue (h : s.NothingDue) : s.takeDue = s := by
  obtain ⟨axes, lists, lines, procs, check⟩ := h
  have timeOut (p : PairId) : s.timeOut p = s := by
    by_cases waits : ∃ k c w, s.proc p = .busy k c (.waiting w)
    · obtain ⟨k, c, w, hw⟩ := waits
      rw [State.timeOut_waiting s p k c w hw, procs p k c w hw]
      rfl
    · exact State.timeOut_other s p fun k c w e => waits ⟨k, c, w, e⟩
  rw [State.takeDue_eq, State.timed, State.ended, State.crossed, State.prescaled, State.timeOutAll,
    List.foldl_fixed' fun a => s.prescaleTick_none a (axes a), List.foldl_fixed' fun a => s.takeCounts_none a (lists a),
    List.foldl_fixed' fun n => s.endTickPulse_none n (lines n), List.foldl_fixed' timeOut]
  exact s.takeCheck_none _ check

end

/-! ## What is taken before a tick, command by command (log 40) -/

/-- The state that a command leaves. -/
def State.run (s : State) (c : Instr) : State :=
  match exec c s with
  | .next t => t
  | _ => s

/-- PRESCALER_EXPIRY and then PRESCALER_ADVANCE: one of the two takes the tick that waits, and the other changes nothing (R18). -/
theorem State.run_prescaler (s : State) (a : AxisId) :
    (s.run (.prescalerExpiry a)).run (.prescalerAdvance a) = s.prescaleTick a := by
  have advance (u : State) (h : (u.axis a).prescale = none) : u.run (.prescalerAdvance a) = u := by
    simp [State.run, exec_prescalerAdvance_eq, execPrescalerAdvance, h]
  cases h : (s.axis a).prescale with
  | none =>
    have expiry : s.run (.prescalerExpiry a) = s := by simp [State.run, exec_prescalerExpiry_eq, execPrescalerExpiry, h]
    rw [expiry, advance s h, State.prescaleTick, h]
  | some pd =>
    obtain ⟨p, d⟩ := pd
    by_cases reached : p ≤ (s.axis a).prescaler + 1
    · have expiry : s.run (.prescalerExpiry a) = s.prescalerExpires a d := by
        simp [State.run, exec_prescalerExpiry_eq, execPrescalerExpiry, h, reached]
      have taken : ((s.prescalerExpires a d).axis a).prescale = none := by
        have waits := ((s.prescalerExpires a d).axis a).prescale_isSome
        rw [(s.prescalerExpires_axis a d).1, Bool.and_false] at waits
        exact Option.isNone_iff_eq_none.1 (by simpa using waits)
      rw [expiry, advance _ taken, State.prescaleTick, h]
      exact (if_pos reached).symm
    · have expiry : s.run (.prescalerExpiry a) = s := by
        simp [State.run, exec_prescalerExpiry_eq, execPrescalerExpiry, h, reached]
      rw [expiry, State.prescaleTick, h]
      simp [State.run, exec_prescalerAdvance_eq, execPrescalerAdvance, h, reached]

/-- What is taken before a tick is taken by the commands of its blocks, one after another. -/
theorem State.takeDue_eq_run (s : State) :
    let prescaled := ((List.finRange 4).flatMap fun a => [Instr.prescalerExpiry a, .prescalerAdvance a]).foldl State.run s
    let crossed := (List.finRange 4).foldl State.takeCounts prescaled
    let ended := ((List.finRange 16).map Instr.pulseEndTick ++ (List.finRange 9).map Instr.barrierTimeout).foldl State.run crossed
    ended.run (.checkEvent s.pins.fb) = s.takeDue := by
  have prescalers : (fun (u : State) (a : AxisId) => [Instr.prescalerExpiry a, .prescalerAdvance a].foldl State.run u) =
      State.prescaleTick := funext fun u => funext u.run_prescaler
  dsimp only
  rw [List.foldl_flatMap, List.foldl_append, List.foldl_map, List.foldl_map, prescalers, State.takeDue_eq, State.timed_pins]
  rfl

/-- Settles O3: the commands before the tick are what is taken before it, the rest is the offer of the tick. -/
theorem tickAdvancesTheTimestamp : Obligations.TickAdvancesTheTimestamp := by
  intro s run prescaled crossed ended u now reached
  have runs (v : State) (cs : List Instr) : run v cs = cs.foldl State.run v := rfl
  have due : u = s.takeDue := by
    simp only [u, ended, crossed, prescaled, runs, List.foldl_cons, List.foldl_nil]
    exact s.takeDue_eq_run
  refine ⟨fun h => ?tick, fun h => ?reset, ?taken, fun h => ?idle⟩
  case tick =>
    have tick : exec .tick s = .next s.takeDue.advanceTime := by simp [exec_tick_eq, h]
    have ts : s.takeDue.ts = s.ts := State.ts_of_clock s.takeDue_clock
    rw [tick, due, State.advanceTime_eq, ts, funext fun n => (s.takeDue.line n).offered_eq,
      funext fun p => (s.takeDue.proc p).offerTick_eq _]
    generalize s.takeDue = v
    rfl
  case reset => simp [exec_tick_eq, h]
  case taken => exact due ▸ s.takeDue_nothingDue
  case idle => exact due.trans (s.takeDue_of_nothingDue h)

end Sys2Proof.Machine

namespace Sys2Proof.Machine

/-! ## What a command leaves of the Axis Units -/

section
variable (s : State)

@[simp] theorem State.releaseAll_axes (es : List Entry) : (s.releaseAll es).axes = s.axes :=
  List.foldlRecOn (motive := fun u : State => u.axes = s.axes) es _ rfl fun u hu e _ => (u.release_axes e).trans hu
@[simp] theorem State.retireAll_axes (es : List Entry) : (s.retireAll es).axes = s.axes :=
  List.foldlRecOn (motive := fun u : State => u.axes = s.axes) es _ rfl fun u hu e _ => (u.retire_axes e).trans hu
@[simp] theorem State.reportRetire_axes (e : Entry) (x : Reason) (pos : Int) (serial stamp : Nat) :
    (s.reportRetire e x pos serial stamp).axes = s.axes := by
  unfold State.reportRetire; split <;> simp
@[simp] theorem State.fire_axes (a : AxisId) (k : AxisKind) (e : Entry) (order : Option Nat) (f : FirePoint) (reports : Bool) :
    (s.fire a k e order f reports).axes = s.axes := by
  rw [(FiresOnly.fire s a k e order f reports).1]
@[simp] theorem State.takeListMsg_axes (a : AxisId) (m : ListMsg) : (s.takeListMsg a m).axes = s.axes := by
  rw [State.takeListMsg_frame]
@[simp] theorem State.takeCounts_axes (a : AxisId) : (s.takeCounts a).axes = s.axes := by
  rw [State.takeCounts_frame]
@[simp] theorem State.listBefore_axes (n : LineId) : (s.listBefore n).axes = s.axes := by
  rw [State.listBefore_frame]
@[simp] theorem State.endTickPulse_axes (n : LineId) : (s.endTickPulse n).axes = s.axes := by
  rw [State.endTickPulse_frame]
@[simp] theorem State.timeOut_axes (p : PairId) : (s.timeOut p).axes = s.axes := by
  rw [State.timeOut_frame]
@[simp] theorem State.allocate_axes (p : PairId) (e : Entry) : (s.allocate p e).axes = s.axes := by
  simp [State.allocate]
@[simp] theorem State.insertArm_axes (p : PairId) (e : Entry) (pos : Int) (g : AxisConfig) :
    (s.insertArm p e pos g).axes = s.axes := by
  unfold State.insertArm
  dsimp only
  repeat' split
  all_goals simp
@[simp] theorem State.insertActivated_axes (a : AxisId) (w : Waiting) (origin : Int) (g : AxisConfig) :
    (s.insertActivated a w origin g).axes = s.axes := by
  unfold State.insertActivated
  dsimp only
  repeat' split
  all_goals simp
@[simp] theorem State.removeArmed_axes (a : AxisId) (reaches : Entry → Bool) : (s.removeArmed a reaches).axes = s.axes := by
  simp [State.removeArmed]
@[simp] theorem State.answer_axes (p : PairId) (b : Block) (n : Nat) : (s.answer p b n).axes = s.axes := by
  simp [State.answer]
@[simp] theorem State.answerExcluded_axes (p : PairId) (b : Block) : (s.answerExcluded p b).axes = s.axes := by
  simp [State.answerExcluded]
@[simp] theorem State.captureEdge_axes (c : ChanId) (g : ChanConfig) : (s.captureEdge c g).axes = s.axes := by
  have reported (u : State) (k : Capture) (n : Nat) (held unclaimed : Bool) :
      (u.reportCapture c g k n held unclaimed).axes = u.axes := by
    unfold State.reportCapture; split <;> simp
  unfold State.captureEdge State.afterLatch
  dsimp only
  repeat' split
  all_goals simp [reported]
@[simp] theorem State.takeLevel_axes (c : ChanId) (input : InputId) (level : Bool) :
    (s.takeLevel c input level).axes = s.axes := rfl
@[simp] theorem State.removeWaiting_axes (p : PairId) (c : ChanId) (reaches : Entry → Bool) (f : Channel → Channel) :
    (s.removeWaiting p c reaches f).axes = s.axes := by simp [State.removeWaiting]
@[simp] theorem State.configureChan_axes (p : PairId) (c : ChanId) (g : Option ChanConfig) (discard : Bool) :
    (s.configureChan p c g discard).axes = s.axes := by
  unfold State.configureChan
  dsimp only
  repeat' split
  all_goals simp
@[simp] theorem State.sendRelease_axes (m : SlotId) : (s.sendRelease m).axes = s.axes := by
  unfold State.sendRelease; split <;> simp
@[simp] theorem State.setGlobal_axes (enable : Bool) (period : Nat) : (s.setGlobal enable period).axes = s.axes := by
  unfold State.setGlobal; dsimp only; split <;> simp
@[simp] theorem State.setFault_axes (c : ErrorCause) : (s.setFault c).axes = s.axes := by
  unfold State.setFault State.dropSnapshot
  split
  · rfl
  · split
    · split
      · exact State.handAck_axes ..
      · rfl
    · rfl
@[simp] theorem State.setCause_axes (p : PairId) (c : ErrorCause) : (s.setCause p c).axes = s.axes := by
  unfold State.setCause; split <;> simp [State.flushCq]
@[simp] theorem State.pairError_axes (p : PairId) (c : ErrorCause) : (s.pairError p c).axes = s.axes := by
  unfold State.pairError; split <;> simp
@[simp] theorem State.endRead_axes (p : PairId) : (s.endRead p).axes = s.axes := rfl
@[simp] theorem State.grant_axes (p : PairId) : (s.grant p).axes = s.axes := rfl
@[simp] theorem State.takeRequest_axes (p : PairId) (r : CqRequest) : (s.takeRequest p r).axes = s.axes := by
  have accepted (u : State) : (u.acceptCq p r).axes = u.axes := rfl
  unfold State.takeRequest State.takeAck State.takeReport
  dsimp only
  repeat' split
  all_goals simp [accepted]
@[simp] theorem State.takeNotification_axes (n : Notice) : (s.takeNotification n).axes = s.axes := by
  unfold State.takeNotification
  repeat' split
  all_goals rfl
@[simp] theorem State.endWrite_axes : s.endWrite.axes = s.axes := rfl
@[simp] theorem State.recordError_axes (ring : RingId) : (s.recordError ring).axes = s.axes := by
  cases ring with
  | cq p => simp [State.recordError]
  | nq => rfl
@[simp] theorem State.answerStatus_axes (w : QueuedWrite) (stale : Bool) : (s.answerStatus w stale).axes = s.axes := by
  have published (ring : RingId) (v : Nat) : (s.publish ring v).axes = s.axes := by cases ring <;> rfl
  unfold State.answerStatus
  repeat' split
  · exact published ..
  all_goals rfl
@[simp] theorem State.setQuota_axes (p : PairId) (quota : Nat) : (s.setQuota p quota).axes = s.axes := rfl
@[simp] theorem State.queueZeros_axes (p : PairId) : (s.queueZeros p).axes = s.axes := rfl
@[simp] theorem State.abortBarrier_axes (p : PairId) : (s.abortBarrier p).axes = s.axes := by
  unfold State.abortBarrier; split <;> simp
@[simp] theorem State.becomeAbsent_axes (p : PairId) : (s.becomeAbsent p).axes = s.axes := by
  simp [State.becomeAbsent, State.staleWhen]
@[simp] theorem State.startDiscard_axes (p : PairId) : (s.startDiscard p).axes = s.axes := by simp [State.startDiscard]
@[simp] theorem State.setNotices_axes (base : W64) (size : Nat) : (s.setNotices base size).axes = s.axes := rfl
@[simp] theorem State.queueSnapshot_axes (q : QueryOf) (addr : W64) : (s.queueSnapshot q addr).axes = s.axes := rfl
@[simp] theorem State.endCancel_axes (p : PairId) (x : Removing) : (s.endCancel p x).axes = s.axes := by
  unfold State.endCancel; split <;> simp
@[simp] theorem State.writeStatusBlockBase_axes (access : Access) (v : W64) :
    (s.writeStatusBlockBase access v).axes = s.axes := by
  unfold State.writeStatusBlockBase; split <;> rfl
@[simp] theorem State.writeAdminSqBase_axes (access : Access) (v : W64) : (s.writeAdminSqBase access v).axes = s.axes := by
  unfold State.writeAdminSqBase; split <;> rfl
@[simp] theorem State.writeAdminCqBase_axes (access : Access) (v : W64) : (s.writeAdminCqBase access v).axes = s.axes := by
  unfold State.writeAdminCqBase; split <;> rfl
@[simp] theorem State.writeAdminSizes_axes (v : W32) : (s.writeAdminSizes v).axes = s.axes := by
  unfold State.writeAdminSizes; dsimp only; split <;> rfl
@[simp] theorem State.writeSqPost_axes (p : PairId) (v : W32) : (s.writeSqPost p v).axes = s.axes := by
  unfold State.writeSqPost
  dsimp only
  repeat' split
  all_goals simp
@[simp] theorem State.writeCqDone_axes (p : PairId) (v : W32) : (s.writeCqDone p v).axes = s.axes := by
  unfold State.writeCqDone
  dsimp only
  repeat' split
  all_goals simp
@[simp] theorem State.writeNqDone_axes (v : W32) : (s.writeNqDone v).axes = s.axes := by
  unfold State.writeNqDone
  dsimp only
  repeat' split
  all_goals rfl
@[simp] theorem State.writeIrqMask_axes (v : W32) : (s.writeIrqMask v).axes = s.axes := rfl

end

/-! ## The gauge of an axis: what the invariants of 02 speak of -/

/-- The configuration, the state, the hold causes and the position of an axis. -/
structure Gauge where
  config : Option AxisConfig
  state : AxisState
  causes : Causes
  position : Int

/-- The gauge that an axis shows. -/
def Axis.gauge (x : Axis) : Gauge := ⟨x.config, x.state, x.causes, x.position⟩

/-- The gauges of the four axes. -/
def State.gauges (s : State) (a : AxisId) : Gauge := (s.axis a).gauge

/-- One event at an axis, as its gauge shows it. -/
inductive Gauge.Step (k : Gauge) : Gauge → Prop
  /-- A count event in range (R19). -/
  | count (g : AxisConfig) (d : Dir) (q : Int) (hg : k.config = some g) (hq : g.kind.moved k.position d = some q) :
    Step k { k with position := q }
  /-- An index preset (R32). -/
  | preset (g : AxisConfig) (hg : k.config = some g) : Step k { k with position := g.preset }
  /-- A position that AXIS_SET_POSITION may set (R29). -/
  | place (g : AxisConfig) (q : Int) (hg : k.config = some g) (hq : g.kind.holds q) : Step k { k with position := q }
  /-- A hold of an axis that is not HELD (R26). -/
  | enter (c : Cause) (t : Target) : Step k { k with state := .held t, causes := noCauses.add c }
  /-- A further cause at a HELD axis (R26). -/
  | add (c : Cause) (t : Target) (ht : k.state = .held t) : Step k { k with causes := k.causes.add c }
  /-- START and STOP (R23, R24). -/
  | go (st : AxisState) (hk : ∀ t, k.state ≠ .held t) (hst : ∀ t, st ≠ .held t) : Step k { k with state := st }
  /-- RESUME (R28). -/
  | resume (t : Target) : Step k { k with state := t.state, causes := noCauses }
  /-- A new configuration (R12). -/
  | configure (g : AxisConfig) (h0 : g.kind.holds 0) (hp : g.kind.holds g.preset) : Step k ⟨some g, .stopped, noCauses, 0⟩
  /-- A reset (R36). -/
  | clear : Step k ⟨none, .unconfigured, noCauses, 0⟩

/-- From `s` to `t` every axis has gone through events of its own. -/
structure State.Reaches (s t : State) : Prop where
  /-- The events of one axis. -/
  events : ∀ a, Relation.ReflTransGen Gauge.Step (s.axis a).gauge (t.axis a).gauge

theorem State.Reaches.trans {s t u : State} (h : s.Reaches t) (h' : t.Reaches u) : s.Reaches u :=
  ⟨fun a => (h.events a).trans (h'.events a)⟩

/-- States with the same Axis Units show the same gauges. -/
theorem State.gauges_of_axes {s t : State} (h : t.axes = s.axes) : t.gauges = s.gauges :=
  funext fun a => by simp only [State.gauges, State.axis, h]

theorem State.Reaches.refl (s : State) : s.Reaches s := ⟨fun _ => .refl⟩

/-- An axis that shows the same gauge has gone nowhere. -/
theorem State.Reaches.of_gauges {s t : State} (h : t.gauges = s.gauges) : s.Reaches t :=
  ⟨fun a => by rw [show (t.axis a).gauge = (s.axis a).gauge from congrFun h a]⟩

/-- A notice handed changes no axis. -/
theorem State.Reaches.handNotice {s t : State} (h : s.Reaches t) (n : Notice) : s.Reaches (t.handNotice n) :=
  h.trans (.of_gauges rfl)

/-- A change of one axis by an event of its own. -/
theorem State.Reaches.updAxis (s : State) (a : AxisId) (f : Axis → Axis)
    (h : Relation.ReflTransGen Gauge.Step (s.axis a).gauge (f (s.axis a)).gauge) : s.Reaches (s.updAxis a f) := ⟨fun b => by
  rw [State.updAxis_axis]
  split
  · next e => subst e; exact h
  · exact .refl⟩

/-- A change of one axis that its gauge does not show. -/
theorem State.updAxis_gauges (s : State) (a : AxisId) (f : Axis → Axis) (h : ∀ x, (f x).gauge = x.gauge) :
    (s.updAxis a f).gauges = s.gauges := funext fun b => by
  rw [State.gauges, State.updAxis_axis]
  split
  · next e => subst e; exact h _
  · rfl

/-! ### The events of an Axis Unit -/

section
variable (s : State)

/-- A hold takes its axis to HELD, adds a cause, or does nothing (R26). -/
theorem State.Reaches.hold (a : AxisId) (c : Cause) : s.Reaches (s.hold a c) := by
  have entered (t : Target) : s.Reaches (s.enterHeld a c t) :=
    (State.Reaches.updAxis s a (fun x => { x with state := .held t, causes := noCauses.add c }) (.single (.enter c t))).trans
      (.of_gauges (State.gauges_of_axes (by simp [State.enterHeld, State.tellHeld])))
  unfold State.hold
  split
  · exact .refl s
  · exact entered _
  · exact entered _
  · next t ht =>
    split
    · exact .refl s
    · exact (State.Reaches.updAxis s a (fun x => { x with causes := (s.axis a).causes.add c }) (.single (.add c t ht))).handNotice _

/-- A count moves its axis, or holds it (R19, R20). -/
theorem State.Reaches.count (a : AxisId) (d : Dir) : s.Reaches (s.count a d) := by
  unfold State.count
  split
  · exact .refl s
  · next g hg =>
    split
    · exact .hold s a _
    · next q hq =>
      exact (State.Reaches.updAxis s a (fun _ => (s.axis a).counted d q) (.single (.count g d q hg hq))).trans
        (.of_gauges (State.gauges_of_axes (by simp [State.tellCount])))

/-- A change of one axis that its gauge does not show comes before what follows. -/
theorem State.Reaches.after_updAxis {t : State} (a : AxisId) (f : Axis → Axis) (hf : ∀ x, (f x).gauge = x.gauge)
    (h : (s.updAxis a f).Reaches t) : s.Reaches t :=
  (State.Reaches.of_gauges (s.updAxis_gauges a f hf)).trans h

/-- The tick at a prescaler counts, or is no event of the gauge (R18). -/
theorem State.Reaches.prescalerExpires (a : AxisId) (d : Dir) : s.Reaches (s.prescalerExpires a d) :=
  .after_updAxis s a (fun x => { x with prescaler := 0, tick := false }) (fun _ => rfl) (.count _ a d)

theorem State.prescalerAdvances_gauges (a : AxisId) : (s.prescalerAdvances a).gauges = s.gauges :=
  s.updAxis_gauges a (fun x => { x with prescaler := x.prescaler + 1, tick := false }) fun _ => rfl

theorem State.Reaches.prescaleTick (a : AxisId) : s.Reaches (s.prescaleTick a) := by
  unfold State.prescaleTick
  split
  · split
    · exact .prescalerExpires s a _
    · exact .of_gauges (s.prescalerAdvances_gauges a)
  · exact .refl s

theorem State.takeSample_gauges (a : AxisId) (chA chB : Bool) : (s.takeSample a chA chB).gauges = s.gauges :=
  s.updAxis_gauges a (fun x => { x with refA := chA, refB := chB }) fun _ => rfl

/-- An index event sets the position to the preset, or does not move it (R32). -/
theorem State.Reaches.indexPreset (a : AxisId) (g : AxisConfig) (hg : (s.axis a).config = some g) : s.Reaches (s.indexPreset a g) := by
  unfold State.indexPreset
  dsimp only
  split
  · exact .refl s
  · split
    · exact State.Reaches.updAxis s a (fun x => { x with position := g.preset, homePending := false })
        (.single (.preset g hg)) |>.handNotice _
    · exact .refl s
  · have moved : s.Reaches (s.updAxis a fun x => { x with position := g.preset }) := .updAxis s a _ (.single (.preset g hg))
    split
    · exact moved
    · exact moved.handNotice _

/-- The check of the Monitor Table is no event of a gauge (R124). -/
theorem State.takeCheck_gauges (fb : Vector Bool 16) : (s.takeCheck fb).gauges = s.gauges := by
  unfold State.takeCheck
  split
  · exact funext fun a => by rw [State.gauges, State.check_axis]; rfl
  · rfl

/-- A notice of the Monitor Table at a line is no event of a gauge (R134). -/
theorem State.takeNotice_gauges (n : LineId) (m : TripMsg) (rest : List TripMsg) : (s.takeNotice n m rest).gauges = s.gauges := by
  cases m with
  | release => exact State.gauges_of_axes rfl
  | trip =>
    unfold State.takeNotice State.takeTrip
    dsimp only
    split
    · exact State.updAxis_gauges _ _ _ fun _ => rfl
    · exact State.gauges_of_axes rfl

theorem State.settle_gauges (q : QueryOf) : (s.settle q).gauges = s.gauges := by
  have taken (n : LineId) (k : Nat) : ∀ u : State, (u.takeNotices n k).gauges = u.gauges := by
    induction k with
    | zero => exact fun u => rfl
    | succ k ih =>
      intro u
      unfold State.takeNotices
      split
      · rw [ih, State.takeNotice_gauges]
      · rfl
  unfold State.settle
  split
  · exact taken ..
  · rfl

/-- What is taken before a tick (log 40). -/
theorem State.Reaches.takeDue : s.Reaches s.takeDue :=
  State.takeDue_keeps (fun u => s.Reaches u) (fun u a h => h.trans (.prescaleTick u a))
    (fun u a m _ h _ => h.trans (.of_gauges (State.gauges_of_axes (by simp))))
    (fun u n h => h.trans (.of_gauges (State.gauges_of_axes (by simp))))
    (fun u p h => h.trans (.of_gauges (State.gauges_of_axes (by simp))))
    (fun u fb h => h.trans (.of_gauges (u.takeCheck_gauges fb))) s (.refl s)

theorem State.advanceTime_gauges : s.advanceTime.gauges = s.gauges := funext fun a => by
  have axis : s.advanceTime.axis a = if (s.axis a).prescales = true then { s.axis a with tick := true } else s.axis a := by
    rw [State.advanceTime_eq]
    simp [State.axis]
  rw [State.gauges, axis]
  split <;> rfl

/-- A reset clears every axis (R36). -/
theorem State.Reaches.cleared (ts : Nat) (r : Option ResetCause) (c : ResetCause) (pins : Pins) (q : List Instr) :
    s.Reaches (State.cleared ts r c pins q) := ⟨fun a => by
  have gauge : ((State.cleared ts r c pins q).axis a).gauge = ⟨none, .unconfigured, noCauses, 0⟩ := by
    simp [State.axis, State.cleared, blankAxis, Axis.gauge, noCauses]
  rw [gauge]
  exact .single .clear⟩

/-- An accepted AXIS_CONFIG: the new configuration, and the holds of R12. -/
theorem State.Reaches.configureAxis (a : AxisId) (g : AxisConfig) (h0 : g.kind.holds 0) (hp : g.kind.holds g.preset) :
    s.Reaches (s.configureAxis a g) := by
  have held (u : State) (b : Bool) (c : Cause) : u.Reaches (if b = true then u.hold a c else u) := by
    split
    · exact .hold u a c
    · exact .refl u
  have fresh : s.Reaches (s.updAxis a fun x => x.configured g s.pins.encA[a] s.pins.encB[a]) :=
    .updAxis s a _ (.single (.configure g h0 hp))
  unfold State.configureAxis
  dsimp only
  generalize s.updAxis a (fun x => x.configured g s.pins.encA[a] s.pins.encB[a]) = u at fresh ⊢
  refine fresh.trans (State.Reaches.trans ?_ (held _ _ .trip))
  exact State.Reaches.trans (.of_gauges (State.gauges_of_axes (by simp))) (held _ _ .inhibit)

end

/-! ### The events of every command -/

/-- What a record does past step 3 (R170). -/
theorem State.Reaches.onRecord (s : State) (r : Record) (k : Kind) (f : PairId → State → State)
    (h : ∀ p, s.Takes r k p → (s.startRecord p r).Reaches (f p (s.startRecord p r))) : s.Reaches (s.onRecord r k f) := by
  have started (p : PairId) : s.Reaches (s.startRecord p r) := .of_gauges rfl
  cases hp : s.fetchedFor r k with
  | none => rw [s.onRecord_none r k f hp]; exact .refl s
  | some p =>
    cases hb : badField k r with
    | some ix => rw [s.onRecord_badField r k p ix f hp hb]; exact .of_gauges rfl
    | none => rw [s.onRecord_takes r k p f ⟨hp, hb⟩]; exact (started p).trans (h p ⟨hp, hb⟩)

/-- What a record of a configured axis does there. -/
theorem State.Reaches.onAxis (s : State) (r : Record) (k : Kind) (f : PairId → AxisId → AxisConfig → State → State)
    (h : ∀ p g (u : State), (u.axis (r.axisAt 8)).config = some g → u.Reaches (f p (r.axisAt 8) g u)) : s.Reaches (s.onAxis r k f) :=
  .onRecord s r k _ fun p _ => by
    split
    · next g hg => exact h p g _ hg
    · exact .of_gauges (State.gauges_of_axes (by simp))

/-- A write to the register window that leaves the axes alone, while READY is 1 (R142). -/
theorem State.Reaches.whenReady (s : State) (f : State → State) (h : s.Reaches (f s)) : s.Reaches (s.whenReady f) := by
  unfold State.whenReady
  split
  · exact .refl s
  · exact h

/-- A write by offset leaves the axes alone, but for one that starts a soft reset (R143). -/
theorem State.Reaches.writeRegister (s : State) (offset : BitVec 12) (v : W64) : s.Reaches (s.writeRegister offset v) := by
  have same {t : State} (h : t.axes = s.axes) : s.Reaches t := .of_gauges (State.gauges_of_axes h)
  have control (low : W32) : s.Reaches (s.writeControl low) := by
    unfold State.writeControl State.softReset
    split
    · exact .cleared s ..
    · exact same rfl
  have either {c : Prop} [Decidable c] {t u : State} (ht : s.Reaches t) (hu : s.Reaches u) : s.Reaches (if c then t else u) := by
    split
    · exact ht
    · exact hu
  exact either (control _) <| either (same (by simp)) <| either (same (by simp)) <| either (same (by simp)) <|
    either (same (by simp)) <| either (same (by simp)) <| either (same (by simp)) <| either (same (by simp)) <|
    either (same (by simp)) <| either (same (by simp)) <| either (same (by simp)) <| either (same (by simp)) <| .refl s

/-- The checks of a record that passes step 3 all hold (R171). -/
theorem fieldChecks_of_badField {k : Kind} {r : Record} (h : badField k r = none) : ∀ x ∈ fieldChecks k r, x.2 = true := by
  have passed : firstBad (fieldChecks k r) = none := by
    unfold badField at h
    split at h
    · cases h
    · exact h
  intro x hx
  simpa [firstBad] using (List.find?_eq_none.1 (Option.map_eq_none_iff.1 passed)) x hx

/-- A signed 32-bit field lies in the LINEAR range. -/
theorem Record.s32_range (r : Record) (i : Nat) : AxisKind.linear.holds (r.s32 i) := by
  have lo := BitVec.le_toInt (BitVec.ofNat 32 (r.u32 i))
  have hi := BitVec.toInt_lt (x := BitVec.ofNat 32 (r.u32 i))
  unfold AxisKind.holds Record.s32
  omega

/-- An AXIS_CONFIG that passes step 3 has position 0 and its preset in range (R10, R190). -/
theorem Record.axisConfig_holds (r : Record) (h : badField .axisConfig r = none) :
    r.axisConfig.kind.holds 0 ∧ r.axisConfig.kind.holds r.axisConfig.preset := by
  have checks := fieldChecks_of_badField h
  have code := checks (7, decide (r.u8 11 ≤ 1)) (by simp [fieldChecks])
  have modulus := checks (12, decide (r.u8 11 ≠ 1 ∨ (2 ≤ r.u32 16 ∧ r.u32 16 ≤ 2 ^ 31))) (by simp [fieldChecks])
  have preset := checks (14, decide (r.u8 11 ≠ 1 ∨ (0 ≤ r.s32 24 ∧ r.s32 24 < r.u32 16))) (by simp [fieldChecks])
  simp only [decide_eq_true_eq] at code modulus preset
  have range := Record.s32_range r 24
  unfold Record.axisConfig
  by_cases linear : r.u8 11 = 0
  · simpa [linear, AxisKind.holds] using range
  · have rotary : r.u8 11 = 1 := by omega
    simp only [rotary, AxisKind.holds]
    simp
    omega

/-- A position that AXIS_SET_POSITION lets through lies in the range of the axis (R29). -/
theorem holds_of_not_posOutside (k : AxisKind) (r : Record) (i : Nat) (h : posOutside k (r.s32 i) = false) : k.holds (r.s32 i) := by
  cases k with
  | linear => exact Record.s32_range r i
  | rotary m => simpa [posOutside, AxisKind.holds] using h

/-- What a command answers, it reaches. -/
theorem State.Reaches.of_next {s t u : State} (h : (.next u : Host.Outcome State Fault Refusal) = .next t) (hu : s.Reaches u) :
    s.Reaches t := by
  cases h
  exact hu

/-- Every command takes every axis through events of its own: what a step can do to the gauge of an axis. -/
theorem exec_reaches (c : Instr) (s t : State) (h : exec c s = .next t) : s.Reaches t := by
  have same {u v : State} (h : v.axes = u.axes) : u.Reaches v := .of_gauges (State.gauges_of_axes h)
  cases c
  case tick =>
    refine .of_next h ?_
    split
    · exact .refl s
    · exact (State.Reaches.takeDue s).trans (.of_gauges (State.advanceTime_gauges _))
  case fullReset => exact .of_next h (.cleared s ..)
  case softReset => exact .of_next h (.whenReady s _ (.cleared s ..))
  case registerWrite => exact .of_next h (.whenReady s _ (.writeRegister s ..))
  case countEvent a chA chB =>
    refine .of_next h ?_
    split
    · exact (State.Reaches.of_gauges (s.takeSample_gauges a chA chB)).trans (.count _ a _)
    · exact .refl s
  case illegalTransition a chA chB =>
    refine .of_next h ?_
    split
    · exact (State.Reaches.of_gauges (s.takeSample_gauges a chA chB)).trans
        (.of_gauges (State.updAxis_gauges _ a _ fun _ => rfl))
    · exact .refl s
  case decoderReferenceUpdate a chA chB =>
    refine .of_next h ?_
    split
    · exact .of_gauges (s.takeSample_gauges a chA chB)
    · exact .refl s
  case prescalerExpiry a =>
    refine .of_next h ?_
    repeat' split
    · exact .prescalerExpires s a _
    · exact .refl s
    · exact .refl s
  case prescalerAdvance a =>
    refine .of_next h ?_
    repeat' split
    · exact .refl s
    · exact .of_gauges (s.prescalerAdvances_gauges a)
    · exact .refl s
  case indexEdge a =>
    refine .of_next h ?_
    split
    · next g hg =>
      split
      · refine .after_updAxis s a (fun x => { x with spacingError := x.spacingAfter g }) (fun _ => rfl) ?_
        exact (State.Reaches.indexPreset _ a g (by simpa using hg)).trans (.of_gauges (State.updAxis_gauges _ a _ fun _ => rfl))
      · exact .refl s
    · exact .refl s
  case holdInAssertAxis a =>
    refine .of_next h (.after_updAxis s a (fun x => { x with holdIn := true }) (fun _ => rfl) ?_)
    dsimp only
    generalize s.updAxis a _ = u
    have pins (p : Pins) : u.Reaches { u with pins := p } := same rfl
    exact (pins _).trans (.hold _ a .inhibit)
  case holdInDeassertAxis a =>
    exact .of_next h (.after_updAxis s a (fun x => { x with holdIn := false }) (fun _ => rfl) (same rfl))
  case holdRequest a =>
    refine .of_next h ?_
    split
    · next rest _ => exact .after_updAxis s a (fun x => { x with holdReqs := rest }) (fun _ => rfl) (.hold _ a _)
    · exact .refl s
  case axisConfig r =>
    refine .of_next h (.onRecord s r _ _ fun p hr => ?_)
    obtain ⟨h0, hp⟩ := Record.axisConfig_holds r hr.2
    split
    · exact same (by simp)
    · exact (State.Reaches.configureAxis _ (r.axisAt 8) _ h0 hp).trans (same (by simp))
  case axisStart r =>
    refine .of_next h (.onAxis s r _ _ fun p g u _ => ?_)
    repeat' split
    · exact same (by simp)
    · next hs =>
      refine (State.Reaches.updAxis u (r.axisAt 8) Axis.started (.single ?_)).trans (same (by simp))
      exact .go .running (fun t e => by simp [Axis.gauge, hs] at e) (fun t e => by cases e)
    · exact same (by simp)
  case axisStop r =>
    refine .of_next h (.onAxis s r _ _ fun p g u _ => ?_)
    split
    · next hs =>
      refine (State.Reaches.updAxis u (r.axisAt 8) Axis.stopped (.single ?_)).trans (same (by simp))
      exact .go .stopped (fun t e => by simp [Axis.gauge, hs] at e) (fun t e => by cases e)
    · exact same (by simp)
  case axisHalt r =>
    exact .of_next h (.onAxis s r _ _ fun p g u _ => (State.Reaches.hold u (r.axisAt 8) .host).trans (same (by simp)))
  case axisResume r =>
    refine .of_next h (.onAxis s r _ _ fun p g u _ => ?_)
    repeat' split
    · exact same (by simp)
    · exact same (by simp)
    · next x _ _ _ =>
      exact (State.Reaches.updAxis u (r.axisAt 8) (fun y => { y with state := x.state, causes := noCauses }) (.single (.resume x))).trans
        (same (by simp [State.resume]))
    · exact same (by simp)
  case axisSetPosition r =>
    refine .of_next h (.onAxis s r _ _ fun p g u hg => ?_)
    repeat' split
    · exact same (by simp)
    · exact same (by simp)
    · next hp _ =>
      refine (State.Reaches.updAxis u (r.axisAt 8) (fun x => { x with position := r.s32 12 }) (.single ?_)).trans (same (by simp))
      exact .place g _ hg (holds_of_not_posOutside _ r 12 (by simpa using hp))
  case axisHome r =>
    refine .of_next h (.onAxis s r _ _ fun p g u _ => ?_)
    have pending (b : Bool) : u.Reaches (u.updAxis (r.axisAt 8) fun x => { x with homePending := b }) :=
      .of_gauges (u.updAxis_gauges _ _ fun _ => rfl)
    repeat' split
    · exact same (by simp)
    · exact (pending false).trans (same (by simp))
    · exact same (by simp)
    · exact (pending true).trans (same (by simp))
  case query r fb =>
    refine .of_next h (.onRecord s r _ _ fun p _ => ?_)
    have seen (u : State) (q : QueryOf) : u.Reaches ({ u with pins := { u.pins with fb := fb } }.settle q) :=
      .of_gauges (State.settle_gauges _ q)
    exact (seen _ (queryOf (r.u8 8) (r.u8 9))).trans (same (by simp))
  case checkEvent fb => exact .of_next h (.of_gauges (s.takeCheck_gauges fb))
  case lineTripNotice | lineReleaseNotice =>
    refine .of_next h ?_
    split
    · exact .of_gauges (State.takeNotice_gauges ..)
    · exact .refl s
  case enableWrite => exact .of_next h (.whenReady s _ (same rfl))
  case statusBlockBaseWrite | adminSqBaseWrite | adminCqBaseWrite | adminSizesWrite | sqPostWrite | cqDoneWrite | nqDoneWrite
      | irqMaskWrite => exact .of_next h (.whenReady s _ (same (by simp)))
  case cancelAxis => exact .of_next h (.onAxis s _ _ _ fun p g u _ => same (by simp))
  case nop | armDeferred | cancel | lineWrite | setNoticeRing | captureConfig | monitorGlobal =>
    exact .of_next h (.onRecord s _ _ _ fun p _ => by
      repeat' split
      all_goals exact same (by simp))
  case arm | barrier | createPair | deletePair | lineConfig | monitorConfig | monitorRelease =>
    exact .of_next h (.onRecord s _ _ _ fun p _ => by
      dsimp only
      repeat' split
      all_goals exact same (by simp))
  case activationInsertion | removalAnswer =>
    refine .of_next h ?_
    dsimp only
    repeat' split
    all_goals exact same (by simp)
  case postNotice =>
    refine .of_next h ?_
    split
    · exact same (State.takeNotification_axes ..)
    · exact .refl s
  all_goals -- no other command reaches an Axis Unit
    refine .of_next h ?_
    repeat' split
    all_goals exact same (by simp)

/-! ### What every event keeps, every command keeps -/

/-- An invariant of gauges that every event keeps. -/
theorem State.Reaches.keeps {s t : State} (h : s.Reaches t) (P : Gauge → Prop) (step : ∀ k k', Gauge.Step k k' → P k → P k')
    (a : AxisId) (hs : P (s.axis a).gauge) : P (t.axis a).gauge := by
  have events := h.events a
  generalize (t.axis a).gauge = k at events
  induction events with
  | refl => exact hs
  | tail _ one ih => exact step _ _ one ih

/-- A step of the block is a command, or nothing. -/
theorem step_reaches (s t : State) (h : step s = .next t) : s.Reaches t := by
  unfold step at h
  split at h
  · next c rest _ =>
    have popped : s.Reaches { s with pending := rest } := .of_gauges rfl
    exact popped.trans (exec_reaches c _ t h)
  · cases h
    exact .refl s

/-- A count event keeps a position in range (R20, R21). -/
theorem AxisKind.holds_moved (k : AxisKind) (p q : Int) (d : Dir) (h : k.holds p) (hq : k.moved p d = some q) : k.holds q := by
  cases k with
  | linear =>
    simp only [AxisKind.moved, linearRange, decide_eq_true_eq] at hq
    split at hq
    · next range => cases hq; exact range
    · cases hq
  | rotary m =>
    cases hq
    unfold AxisKind.holds at *
    exact ⟨Int.emod_nonneg _ (by omega), Int.emod_lt_of_pos _ (by omega)⟩

/-- Position and preset of a configured axis in range, at one gauge (R10, R20, R21). -/
def Gauge.InRange (k : Gauge) : Prop := ∀ g, k.config = some g → g.kind.holds k.position ∧ g.kind.holds g.preset

/-- Every event at an axis keeps its position and its preset in range. -/
theorem Gauge.Step.inRange {k k' : Gauge} (h : Gauge.Step k k') (hk : k.InRange) : k'.InRange := by
  intro g' hg'
  cases h with
  | count g d q hg hq =>
    cases hg.symm.trans hg'
    exact ⟨AxisKind.holds_moved _ _ q d (hk _ hg).1 hq, (hk _ hg).2⟩
  | preset g hg =>
    cases hg.symm.trans hg'
    exact ⟨(hk _ hg).2, (hk _ hg).2⟩
  | place g q hg hq =>
    cases hg.symm.trans hg'
    exact ⟨hq, (hk _ hg).2⟩
  | enter | add | go | resume => exact hk g' hg'
  | configure g h0 hp =>
    cases hg'
    exact ⟨h0, hp⟩
  | clear => cases hg'

/-- Settles O18: every step takes an axis through events, and every event keeps the position in range. -/
theorem positionsStayInRange : Obligations.PositionsStayInRange := by
  intro s t hs h a
  exact (step_reaches s t h).keeps Gauge.InRange (fun _ _ one => one.inRange) a (hs a)

/-- A hold cause exactly while HELD, at one gauge (R22). -/
def Gauge.HeldWithCause (k : Gauge) : Prop := (∃ t, k.state = .held t) ↔ k.causes ≠ noCauses

/-- A set with a cause added is not empty. -/
theorem Causes.add_ne_noCauses (x : Causes) (c : Cause) : x.add c ≠ noCauses := by
  cases c <;> simp [Causes.add, noCauses]

/-- Every event at an axis keeps the causes to the HELD state. -/
theorem Gauge.Step.heldWithCause {k k' : Gauge} (h : Gauge.Step k k') (hk : k.HeldWithCause) : k'.HeldWithCause := by
  unfold Gauge.HeldWithCause at *
  cases h with
  | count | preset | place => exact hk
  | enter c t => exact ⟨fun _ => Causes.add_ne_noCauses _ c, fun _ => ⟨t, rfl⟩⟩
  | add c t ht => exact ⟨fun _ => Causes.add_ne_noCauses _ c, fun _ => ⟨t, ht⟩⟩
  | go st hst hst' =>
    have none : ¬∃ t, k.state = .held t := fun ⟨t, ht⟩ => hst t ht
    exact ⟨fun ⟨t, ht⟩ => absurd ht (hst' t), fun hc => absurd (hk.2 hc) none⟩
  | resume t => exact ⟨fun ⟨u, hu⟩ => (by cases t <;> cases hu), fun hc => absurd rfl hc⟩
  | configure | clear => exact ⟨fun ⟨t, ht⟩ => (by cases ht), fun hc => absurd rfl hc⟩

theorem Axis.isHeld_iff (x : Axis) : x.isHeld = true ↔ ∃ t, x.state = .held t := by
  unfold Axis.isHeld
  cases x.state <;> simp

/-- The invariant of the machine is that of its gauges. -/
theorem State.causesMatchHold_iff (s : State) : s.CausesMatchHold ↔ ∀ a, (s.axis a).gauge.HeldWithCause :=
  forall_congr' fun a => by rw [Axis.isHeld_iff]; rfl

/-- Settles O19: every step takes an axis through events, and every event keeps the causes to the HELD state. -/
theorem heldExactlyWithACause : Obligations.HeldExactlyWithACause := by
  intro s t hs h
  rw [State.causesMatchHold_iff] at hs ⊢
  exact fun a => (step_reaches s t h).keeps Gauge.HeldWithCause (fun _ _ one => one.heldWithCause) a (hs a)

end Sys2Proof.Machine

namespace Sys2Proof.Machine

/-! ## One axis changed, and what an Axis Unit hands on -/

section
variable (s : State) (a : AxisId)

/-- The whole state after a change of one axis. -/
theorem State.updAxis_eq (f : Axis → Axis) : s.updAxis a f = { s with axes := s.axes.set a (f (s.axis a)) } := rfl

/-- Two changes of an axis, one after the other, are one change. -/
theorem State.updAxis_updAxis (f g : Axis → Axis) : (s.updAxis a f).updAxis a g = s.updAxis a fun x => g (f x) := by
  have axis : (s.updAxis a f).axis a = f (s.axis a) := by simp
  rw [State.updAxis_eq, axis]
  simp [State.updAxis]

/-- A notice handed and a change of an axis, in either order. -/
theorem State.handNotice_updAxis (n : Notice) (f : Axis → Axis) : (s.handNotice n).updAxis a f = (s.updAxis a f).handNotice n := rfl

/-- A count event handed to the list, the lines and the channels of the axis (R19). -/
theorem State.tellCount_eq (k : Count) : s.tellCount a k = { s with
    lists := s.lists.set a { s.clist a with inbox := (s.clist a).inbox ++ [.count k] }
    lines := Vector.ofFn fun n =>
      if (s.line n).boundTo a then { s.line n with fromAxis := (s.line n).fromAxis ++ [.count k.serial] } else s.line n
    channels := Vector.ofFn fun c =>
      if (s.chan c).boundTo a then { s.chan c with inbox := (s.chan c).inbox ++ [.count k.serial] } else s.chan c } := rfl

/-! ### The laws of a hold (R22, R25, R26) -/

/-- The state of an axis that has entered HELD, with what it has told its list, its lines and the posting unit. -/
def State.held (c : Cause) (t : Target) : State := { s with
  axes := s.axes.set a { s.axis a with state := .held t, causes := noCauses.add c }
  lists := s.lists.set a { s.clist a with inbox := (s.clist a).inbox ++ [.freeze] }
  lines := Vector.ofFn fun n =>
    if (s.line n).boundTo a then { s.line n with fromAxis := (s.line n).fromAxis ++ [.held] } else s.line n
  nqReq := s.nqReq ++ [.axisHeld a (s.axis a).position c (noCauses.add c) t s.ts] }

variable {s a}

/-- A hold takes a RUNNING axis to HELD (R26). -/
theorem State.hold_running (c : Cause) (h : (s.axis a).state = .running) : s.hold a c = s.held a c .running := by
  unfold State.hold
  rw [h]
  rfl

/-- A hold takes a STOPPED axis to HELD (R26). -/
theorem State.hold_stopped (c : Cause) (h : (s.axis a).state = .stopped) : s.hold a c = s.held a c .stopped := by
  unfold State.hold
  rw [h]
  rfl

/-- A hold adds its cause to a HELD axis, once (R26). -/
theorem State.hold_held (c : Cause) (t : Target) (h : (s.axis a).state = .held t) :
    s.hold a c = if (s.axis a).causes.has c then s else { s with
      axes := s.axes.set a { s.axis a with causes := (s.axis a).causes.add c }
      nqReq := s.nqReq ++ [.axisHeld a (s.axis a).position c ((s.axis a).causes.add c) t s.ts] } := by
  unfold State.hold
  rw [h]
  rfl

end

/-! ## Samples (R13 to R17) -/

section
variable {s : State} {a : AxisId} {chA chB : Bool}

theorem exec_countEvent_eq {d : Dir} (h : (s.axis a).sample chA chB = .count d) :
    exec (.countEvent a chA chB) s = .next ((s.takeSample a chA chB).count a d) := by
  have meaning : exec (.countEvent a chA chB) s = execCountEvent a chA chB s := rfl
  rw [meaning, execCountEvent, h]

theorem exec_illegalTransition_eq (h : (s.axis a).sample chA chB = .illegal) :
    exec (.illegalTransition a chA chB) s =
      .next ((s.takeSample a chA chB).updAxis a fun x => { x with illegal := satAdd max32 x.illegal 1 }) := by
  have meaning : exec (.illegalTransition a chA chB) s = execIllegalTransition a chA chB s := rfl
  rw [meaning, execIllegalTransition, h]

theorem exec_decoderReferenceUpdate_eq (h : (s.axis a).sample chA chB = .reference) :
    exec (.decoderReferenceUpdate a chA chB) s = .next (s.takeSample a chA chB) := by
  have meaning : exec (.decoderReferenceUpdate a chA chB) s = execDecoderReferenceUpdate a chA chB s := rfl
  rw [meaning, execDecoderReferenceUpdate, h]

/-- The axis after a sample has become its reference (R13). -/
theorem State.takeSample_axis (s : State) (a : AxisId) (chA chB : Bool) :
    (s.takeSample a chA chB).axis a = { s.axis a with refA := chA, refB := chB } := by
  simp [State.takeSample, State.axis, State.updAxis]

/-- The whole state after a sample has become the reference. -/
theorem State.takeSample_eq (s : State) (a : AxisId) (chA chB : Bool) : s.takeSample a chA chB = { s with
    axes := s.axes.set a { s.axis a with refA := chA, refB := chB }
    pins := { s.pins with encA := s.pins.encA.set a chA, encB := s.pins.encB.set a chB } } := rfl

/-- What a sample is to an axis that counts (R13, R18). -/
theorem Axis.sample_counting (x : Axis) (g : AxisConfig) (chA chB : Bool) (hg : x.config = some g) (hc : x.counting = true) :
    x.sample chA chB = match g.source with
      | .quad decode invert => quadSample decode invert x.refA x.refB chA chB
      | .stepdir invert => stepSample invert x.refA chA chB
      | .timebase _ _ => .reference := by
  cases hsource : g.source <;> simp [Axis.sample, hc, hg, hsource]

end

/-- Settles O14: the two commands by the state after the sample, the tables of R14 to R17 level by level. -/
theorem samplesThatDoNotCount : Obligations.SamplesThatDoNotCount := by
  intro s a chA chB
  refine ⟨fun h => ?illegal, fun h => ?reference, fun h => ?idle, fun g hg hc => Axis.sample_counting _ g chA chB hg hc,
    fun decode invert refA refB hA hB => ?both, fun decode invert => ?neither, fun invert level => ?tables⟩
  case illegal =>
    rw [exec_illegalTransition_eq h, State.updAxis_eq, State.takeSample_axis, State.takeSample_eq]
    simp [satAdd, max32]
  case reference => rw [exec_decoderReferenceUpdate_eq h, State.takeSample_eq]
  case idle => simp [Axis.sample, h]
  case both => simp [quadSample, hA, hB]
  case neither => simp [quadSample]
  case tables => cases invert <;> cases level <;> cases chB <;> decide

/-! ## Count events (R19 to R21) -/

/-- A count on a LINEAR axis moves its position by one (R20). -/
theorem AxisKind.moved_linear (p q : Int) (d : Dir) (h : AxisKind.linear.moved p d = some q) : q = p + d.step := by
  unfold AxisKind.moved at h
  simp only [Option.ite_none_right_eq_some] at h
  exact (Option.some.inj h.2).symm

/-- A count on a LINEAR axis is not applied exactly when it would leave the range (R20). -/
theorem AxisKind.moved_linear_none (p : Int) (d : Dir) :
    AxisKind.linear.moved p d = none ↔ p + d.step < -(2 ^ 31) ∨ 2 ^ 31 - 1 < p + d.step := by
  simp [AxisKind.moved, linearRange]
  omega

/-- A count on a ROTARY axis moves its position by one and wraps at its ends (R21). -/
theorem AxisKind.moved_rotary (m : Nat) (p q : Int) (d : Dir) : (AxisKind.rotary m).moved p d = some q → 0 ≤ p → p < m →
    q = match d with
      | .fwd => if p = (m : Int) - 1 then 0 else p + 1
      | .rev => if p = 0 then (m : Int) - 1 else p - 1 := by
  intro h h0 hm
  cases h
  cases d with
  | fwd =>
    dsimp only [Dir.step]
    split
    · next top => rw [top, Int.sub_add_cancel, Int.emod_self]
    · exact Int.emod_eq_of_lt (by omega) (by omega)
  | rev =>
    dsimp only [Dir.step]
    split
    · next bottom => rw [bottom, ← Int.add_emod_right]; exact Int.emod_eq_of_lt (by omega) (by omega)
    · exact Int.emod_eq_of_lt (by omega) (by omega)

/-- A count in range (R19). -/
theorem State.count_moved (s : State) (a : AxisId) (d : Dir) (g : AxisConfig) (q : Int) (hg : (s.axis a).config = some g)
    (hq : g.kind.moved (s.axis a).position d = some q) :
    s.count a d = (s.updAxis a fun x => x.counted d q).tellCount a ⟨d, q, ((s.axis a).counted d q).serial, s.ts⟩ := by
  unfold State.count
  rw [hg]
  dsimp only
  rw [hq]
  rfl

/-- A count that would leave the LINEAR range (R20). -/
theorem State.count_overflow (s : State) (a : AxisId) (d : Dir) (g : AxisConfig) (hg : (s.axis a).config = some g)
    (hq : g.kind.moved (s.axis a).position d = none) : s.count a d = s.hold a .overflow := by
  unfold State.count
  rw [hg]
  dsimp only
  rw [hq]

/-- Settles O12: the count of the axis that has taken its sample, and the position by the kind of axis. -/
theorem countEventMovesTheAxis : Obligations.CountEventMovesTheAxis := by
  intro s a chA chB d g q hg hs hq
  refine ⟨?_, fun hk => ?_, fun m hk h0 hm => ?_⟩
  · have axis := s.takeSample_axis a chA chB
    rw [exec_countEvent_eq hs, State.count_moved _ a d g q (by rw [axis]; exact hg) (by rw [axis]; exact hq),
      State.tellCount_eq, State.updAxis_eq, axis, State.takeSample_eq]
    simp only [Vector.set_set]
    cases d <;> rfl
  · rw [hk] at hq
    rw [AxisKind.moved_linear _ q d hq]
    cases d <;> rfl
  · rw [hk] at hq
    exact AxisKind.moved_rotary m _ q d hq h0 hm

/-- Settles O13: the count out of range is the hold with cause OVERFLOW of the axis that has taken its sample. -/
theorem overflowHoldsTheAxis : Obligations.OverflowHoldsTheAxis := by
  intro s a chA chB d g x sampled pins
  refine ⟨fun q lo hi => ?_, fun m q => nofun, fun hg hs hq => ⟨fun hr => ?_, fun hh => ?_, ?_⟩⟩
  · rw [AxisKind.moved_linear_none]
    cases d <;> simp [Dir.step] <;> omega
  · have axis : (s.takeSample a chA chB).axis a = sampled := s.takeSample_axis a chA chB
    rw [exec_countEvent_eq hs, State.count_overflow _ a d g (by rw [axis]; exact hg) (by rw [axis]; exact hq),
      State.hold_running .overflow (by rw [axis]; exact hr), State.held, axis, State.takeSample_eq]
    simp only [Vector.set_set]
    rfl
  · have axis : (s.takeSample a chA chB).axis a = sampled := s.takeSample_axis a chA chB
    rw [exec_countEvent_eq hs, State.count_overflow _ a d g (by rw [axis]; exact hg) (by rw [axis]; exact hq),
      State.hold_held .overflow .running (by rw [axis]; exact hh), axis, State.takeSample_eq]
    simp [sampled, x, pins, Causes.add, Causes.has]
  · cases hk : g.kind with
    | rotary m => rw [hk] at hq; cases hq
    | linear =>
      rw [hk, AxisKind.moved_linear_none] at hq
      refine ⟨rfl, ?_⟩
      cases d <;> simp [Dir.step] at hq ⊢ <;> omega

/-! ## The prescaler (R18) -/

/-- A counting TIMEBASE axis to which a tick has been offered prescales it (R18). -/
theorem Axis.prescale_timebase (x : Axis) (g : AxisConfig) (p : Nat) (d : Dir) (hg : x.config = some g)
    (hs : g.source = .timebase p d) (hc : x.counting = true) (ht : x.tick = true) : x.prescale = some (p, d) := by
  simp [Axis.prescale, hg, hs, hc, ht]

/-- Settles O15: the tick below P advances the prescaler, the one that reaches it makes a count event. -/
theorem prescalerDividesTheTicks : Obligations.PrescalerDividesTheTicks := by
  intro s a g p d hg hs hc ht x
  have prescale := x.prescale_timebase g p d hg hs hc ht
  have expiry (h : p ≤ x.prescaler + 1) : exec (.prescalerExpiry a) s = .next (s.prescalerExpires a d) := by
    rw [exec_prescalerExpiry_eq, execPrescalerExpiry, prescale]
    exact congrArg _ (if_pos h)
  refine ⟨fun h => ?_, fun h => expiry h, fun q h hq => ⟨_, expiry h, ?_⟩⟩
  · rw [exec_prescalerAdvance_eq, execPrescalerAdvance, prescale]
    exact congrArg _ (if_neg (Nat.not_le.2 h))
  · have axis : (s.updAxis a fun x => { x with prescaler := 0, tick := false }).axis a = { x with prescaler := 0, tick := false } := by
      simp [x]
    rw [State.prescalerExpires, State.count_moved _ a d g q (by rw [axis]; exact hg) (by rw [axis]; exact hq)]
    simp [State.tellCount, Axis.counted, satAdd, max64, x]

/-! ## The index input (R30 to R32) -/

/-- An axis counts while RUNNING or HELD with target RUNNING (02.2). -/
theorem Axis.counting_iff (x : Axis) : x.counting = true ↔ x.state = .running ∨ x.state = .held .running := by
  unfold Axis.counting
  cases x.state with
  | held t => cases t <;> simp
  | _ => simp

/-- The condition under which a rising edge on ENCZ is an index event (R30). -/
theorem Axis.takesIndex_iff (x : Axis) (g : AxisConfig) : x.takesIndex g = true ↔
    (x.state = .running ∨ x.state = .held .running) ∧ match g.indexDir with
      | .fwd => x.lastDir = some .fwd
      | .rev => x.lastDir = some .rev
      | .either => x.lastDir ≠ none := by
  rw [Axis.takesIndex, Bool.and_eq_true, Axis.counting_iff]
  refine and_congr Iff.rfl ?_
  cases x.lastDir with
  | none => cases g.indexDir <;> simp
  | some d => cases d <;> cases g.indexDir <;> simp [Qualifier.accepts]

/-- An axis without a configuration takes no index event. -/
theorem exec_indexEdge_unconfigured (s : State) (a : AxisId) (h : (s.axis a).config = none) : exec (.indexEdge a) s = .next s := by
  have meaning : exec (.indexEdge a) s = execIndexEdge a s := rfl
  rw [meaning, execIndexEdge, h]

/-- An index event: the spacing check, the preset, and the index history (R30 to R32). -/
theorem exec_indexEdge (s : State) (a : AxisId) (g : AxisConfig) (h : (s.axis a).config = some g) :
    exec (.indexEdge a) s = .next (if (s.axis a).takesIndex g then
      ((s.updAxis a fun x => { x with spacingError := x.spacingAfter g }).indexPreset a g).updAxis a
        fun x => { x with prevIndex := true, net := 0 } else s) := by
  have meaning : exec (.indexEdge a) s = execIndexEdge a s := rfl
  rw [meaning, execIndexEdge, h]

/-- Without an index mode that presets, the position stays (R32). -/
theorem State.indexPreset_none (s : State) (a : AxisId) (g : AxisConfig)
    (h : g.indexMode = .none ∨ (g.indexMode = .homeOnce ∧ (s.axis a).homePending = false)) : s.indexPreset a g = s := by
  unfold State.indexPreset
  rcases h with h | ⟨h, hp⟩ <;> rw [h]
  simp [hp]

/-- The index event that HOME_ONCE waits for (R32). -/
theorem State.indexPreset_home (s : State) (a : AxisId) (g : AxisConfig) (h : g.indexMode = .homeOnce)
    (hp : (s.axis a).homePending = true) :
    s.indexPreset a g = (s.updAxis a fun x => { x with position := g.preset, homePending := false }).handNotice
      (.homeDone a (s.axis a).position g.preset (s.axis a).serial s.ts) := by
  unfold State.indexPreset
  rw [h]
  exact if_pos hp

/-- The index event of PRESET_EVERY, whose notice tells of a position that was not the preset (R32). -/
theorem State.indexPreset_every (s : State) (a : AxisId) (g : AxisConfig) (h : g.indexMode = .presetEvery) :
    s.indexPreset a g = if (s.axis a).position = g.preset then s.updAxis a fun x => { x with position := g.preset }
      else (s.updAxis a fun x => { x with position := g.preset }).handNotice
        (.indexCorrected a (s.axis a).position g.preset (s.axis a).serial s.ts) := by
  unfold State.indexPreset
  rw [h]

/-- Settles O16: whether the edge is taken, and then the preset by index mode. -/
theorem indexEventChecksAndPresets : Obligations.IndexEventChecksAndPresets := by
  intro s a g taken
  have taken_iff : (s.axis a).takesIndex g = true ↔ taken := (s.axis a).takesIndex_iff g
  refine ⟨exec_indexEdge_unconfigured s a, fun hg ht => ?ignored, fun hg ht => ?event⟩
  case ignored => rw [exec_indexEdge s a g hg, if_neg (mt taken_iff.1 ht)]
  case event =>
    intro x bad y
    have event := exec_indexEdge s a g hg
    rw [if_pos (taken_iff.2 ht)] at event
    have axis : (s.updAxis a fun x => { x with spacingError := x.spacingAfter g }).axis a = { x with spacingError := bad } := by
      simp [x, bad, Axis.spacingAfter]
    refine ⟨fun hm => ?none, fun hm hp => ?home, fun hm => ?every⟩
    case none =>
      rw [event, State.indexPreset_none _ a g (by rw [axis]; exact hm), State.updAxis_updAxis]
      rfl
    case home =>
      rw [event, State.indexPreset_home _ a g hm (by rw [axis]; exact hp), axis, State.handNotice_updAxis, State.updAxis_updAxis,
        State.updAxis_updAxis]
      rfl
    case every =>
      rw [event, State.indexPreset_every _ a g hm, axis]
      by_cases same : x.position = g.preset
      · rw [if_pos same, if_pos same, State.updAxis_updAxis, State.updAxis_updAxis, List.append_nil]
        rfl
      · rw [if_neg same, if_neg same, State.handNotice_updAxis, State.updAxis_updAxis, State.updAxis_updAxis]
        rfl

/-! ## HOLD_IN and hold requests (R26, R27) -/

/-- Settles O17, by the laws of a hold. -/
theorem holdRequestsHoldTheAxis : Obligations.HoldRequestsHoldTheAxis := by
  intro s a c rest
  refine ⟨rfl, rfl, fun h => ?_, fun h => s.hold_unchanged a c (.inl h), fun x h => ?_, fun x h => State.hold_held c x h⟩
  · have meaning : exec (.holdRequest a) s = execHoldRequest a s := rfl
    rw [meaning, execHoldRequest, h]
    rfl
  · have held : s.hold a c = s.held a c x := by
      rcases h with ⟨h, rfl⟩ | ⟨h, rfl⟩
      · exact State.hold_running c h
      · exact State.hold_stopped c h
    rw [held]
    exact ⟨by simp [State.held, State.axis], by simp [State.held, State.clist],
      fun n hn => by simp [State.held, State.line] at hn ⊢; simp [hn], rfl⟩

end Sys2Proof.Machine

namespace Sys2Proof.Machine

/-! ## A record that acts on an axis -/

section
variable {s : State} {r : Record} {k : Kind} {p : PairId}

/-- A record taken at a configured axis acts on it. -/
theorem State.onAxis_configured {g : AxisConfig} (f : PairId → AxisId → AxisConfig → State → State) (h : s.Takes r k p)
    (hg : (s.axis (r.axisAt 8)).config = some g) : s.onAxis r k f = f p (r.axisAt 8) g (s.startRecord p r) := by
  rw [State.onAxis, State.onRecord_takes s r k p _ h, State.startRecord_axis, hg]

/-- A record taken at an UNCONFIGURED axis is refused (R36). -/
theorem State.onAxis_unconfigured (f : PairId → AxisId → AxisConfig → State → State) (h : s.Takes r k p)
    (hg : (s.axis (r.axisAt 8)).config = none) : s.onAxis r k f = s.recordAnswered p r .notConfigured 0 s.ts := by
  rw [State.onAxis, State.onRecord_takes s r k p _ h, State.startRecord_axis, hg]
  exact s.startRecord_handAck p r .notConfigured 0 s.ts

variable (s r p)

/-- The ack of a record that has been started, whatever else has changed since. -/
theorem State.handAck_started (u : State) (st : Status) (d t : Nat) (hp : u.procs = (s.startRecord p r).procs) (hc : u.cqReq = s.cqReq) :
    u.handAck p st d t =
      { u with procs := (s.recordAnswered p r st d t).procs, cqReq := (s.recordAnswered p r st d t).cqReq } := by
  have busy : u.proc p = .busy (r.byte 0) r.cookie .acked := by
    rw [State.proc, hp]
    exact (s.startRecord_proc p p r).trans (if_pos rfl)
  rw [State.handAck_busy u p _ _ _ st d t busy]
  simp [State.withAck, State.requests, State.recordAnswered, State.recordTaken, State.startRecord, State.setProc, hp, hc]

/-- The ack of a record that has changed axes, lists, channels, lines and what waits for the posting unit: it looks at nothing
of them, and changes nothing of them. -/
theorem State.startRecord_handAck_units (st : Status) (d t : Nat) (axes : Vector Axis 4) (lists : Vector CList 4)
    (channels : Vector Channel 8) (lines : Vector Line 16) (notices : List Notice) :
    { s.startRecord p r with axes := axes, lists := lists, channels := channels, lines := lines, nqReq := notices }.handAck p st d t =
      { s.recordAnswered p r st d t with
        axes := axes, lists := lists, channels := channels, lines := lines, nqReq := notices } :=
  State.handAck_started s r p _ st d t rfl rfl

/-- The ack of a record that has changed its axis. -/
theorem State.startRecord_updAxis_handAck (a : AxisId) (f : Axis → Axis) (st : Status) (d t : Nat) :
    ((s.startRecord p r).updAxis a f).handAck p st d t =
      { s.recordAnswered p r st d t with axes := s.axes.set a (f (s.axis a)) } := by
  exact s.startRecord_handAck_units r p st d t _ s.lists s.channels s.lines s.nqReq

end

/-- Settles O22: each of the seven commands asks for the configuration of its axis first. -/
theorem unconfiguredAxisIsRefused : Obligations.UnconfiguredAxisIsRefused := by
  intro s r p hg
  exact ⟨fun h => congrArg _ (State.onAxis_unconfigured _ h hg), fun h => congrArg _ (State.onAxis_unconfigured _ h hg),
    fun h => congrArg _ (State.onAxis_unconfigured _ h hg), fun h => congrArg _ (State.onAxis_unconfigured _ h hg),
    fun h => congrArg _ (State.onAxis_unconfigured _ h hg), fun h => congrArg _ (State.onAxis_unconfigured _ h hg),
    fun h => congrArg _ (State.onAxis_unconfigured _ h hg)⟩

/-- The whole state after an axis has stopped and told its lines (R24). -/
theorem State.stop_eq (s : State) (a : AxisId) : (s.updAxis a Axis.stopped).tellLines a .stop = { s with
    axes := s.axes.set a (s.axis a).stopped
    lines := Vector.ofFn fun n =>
      if (s.line n).boundTo a then { s.line n with fromAxis := (s.line n).fromAxis ++ [.stop] } else s.line n } := rfl

/-! ## AXIS_START, AXIS_STOP, AXIS_HALT, AXIS_SET_POSITION and AXIS_HOME (R23 to R25, R29, R33) -/

section
variable {s : State} {r : Record} {p : PairId} {g : AxisConfig} (hg : (s.axis (r.axisAt 8)).config = some g)
include hg

/-- AXIS_START at a configured axis (R23). -/
theorem exec_axisStart (h : s.Takes r .axisStart p) : exec (.axisStart r) s = .next
    (if (s.axis (r.axisAt 8)).holdIn = true then s.recordAnswered p r .inhibited 0 s.ts
    else if (s.axis (r.axisAt 8)).state = .stopped then { s.recordAnswered p r .ok 0 s.ts with
      axes := s.axes.set (r.axisAt 8) (s.axis (r.axisAt 8)).started }
    else s.recordAnswered p r .axisState 0 s.ts) := by
  refine congrArg _ ((State.onAxis_configured _ h hg).trans ?_)
  simp only [State.startRecord_axis, State.startRecord_ts, State.startRecord_handAck, State.startRecord_updAxis_handAck]

/-- AXIS_STOP at a configured axis (R24). -/
theorem exec_axisStop (h : s.Takes r .axisStop p) : exec (.axisStop r) s = .next
    (if (s.axis (r.axisAt 8)).state = .running then { s.recordAnswered p r .ok 0 s.ts with
      axes := s.axes.set (r.axisAt 8) (s.axis (r.axisAt 8)).stopped
      lines := Vector.ofFn fun n =>
        if (s.line n).boundTo (r.axisAt 8) then { s.line n with fromAxis := (s.line n).fromAxis ++ [.stop] } else s.line n }
    else s.recordAnswered p r .axisState 0 s.ts) := by
  refine congrArg _ ((State.onAxis_configured _ h hg).trans ?_)
  simp only [State.startRecord_axis, State.startRecord_ts, State.startRecord_handAck]
  rw [State.stop_eq]
  simp only [State.startRecord_line, State.startRecord_axis]
  exact if_congr Iff.rfl (s.startRecord_handAck_units r p .ok 0 s.ts ..) rfl

/-- AXIS_SET_POSITION at a configured axis (R29). -/
theorem exec_axisSetPosition (h : s.Takes r .axisSetPosition p) : exec (.axisSetPosition r) s = .next
    (if posOutside g.kind (r.s32 12) = true then s.recordAnswered p r .badField 6 s.ts
    else if (s.axis (r.axisAt 8)).state = .running then s.recordAnswered p r .axisState 0 s.ts
    else { s.recordAnswered p r .ok 0 s.ts with
      axes := s.axes.set (r.axisAt 8) { s.axis (r.axisAt 8) with position := r.s32 12 } }) := by
  refine congrArg _ ((State.onAxis_configured _ h hg).trans ?_)
  simp only [State.startRecord_axis, State.startRecord_ts, State.startRecord_handAck, State.startRecord_updAxis_handAck]

/-- AXIS_HOME at a configured axis (R33). -/
theorem exec_axisHome (h : s.Takes r .axisHome p) : exec (.axisHome r) s = .next
    (if g.indexMode ≠ .homeOnce then s.recordAnswered p r .indexMode 0 s.ts
    else if r.flag 0 = true ∧ (s.axis (r.axisAt 8)).homePending = false then s.recordAnswered p r .notPending 0 s.ts
    else { s.recordAnswered p r .ok 0 s.ts with
      axes := s.axes.set (r.axisAt 8) { s.axis (r.axisAt 8) with homePending := !r.flag 0 } }) := by
  refine congrArg _ ((State.onAxis_configured _ h hg).trans ?_)
  simp only [State.startRecord_axis, State.startRecord_ts, State.startRecord_handAck, State.startRecord_updAxis_handAck]
  cases r.flag 0 <;> cases (s.axis (r.axisAt 8)).homePending <;> rfl

end

/-- A hold looks at nothing of the Ring Engine's, and changes nothing of it. -/
theorem State.hold_rings (s : State) (a : AxisId) (c : Cause) (engine : Option FetchRead) (pairs : Vector Pair 9)
    (procs : Vector Proc 9) (reports : Vector (List CqRequest) 9) (writes : List QueuedWrite) :
    { s with engine := engine, pairs := pairs, procs := procs, cqReq := reports, writeQ := writes }.hold a c =
      { s.hold a c with engine := engine, pairs := pairs, procs := procs, cqReq := reports, writeQ := writes } := by
  cases h : (s.axis a).state with
  | unconfigured => rw [s.hold_unchanged a c (.inl h)]; exact State.hold_unchanged _ a c (.inl h)
  | running => rw [s.hold_running c h]; exact State.hold_running c h
  | stopped => rw [s.hold_stopped c h]; exact State.hold_stopped c h
  | held t =>
    rw [s.hold_held c t h]
    refine (State.hold_held (s := { s with engine := engine, pairs := pairs, procs := procs, cqReq := reports, writeQ := writes })
      c t h).trans ?_
    cases hc : (s.axis a).causes.has c
    · exact if_neg (ne_true_of_eq_false hc)
    · exact if_pos hc

/-- The ack of a record that has held its axis (R25). -/
theorem State.startRecord_hold_handAck (s : State) (r : Record) (p : PairId) (a : AxisId) (c : Cause) (st : Status) (d t : Nat) :
    ((s.startRecord p r).hold a c).handAck p st d t = { s.hold a c with
      engine := (s.recordAnswered p r st d t).engine, pairs := (s.recordAnswered p r st d t).pairs
      procs := (s.recordAnswered p r st d t).procs, cqReq := (s.recordAnswered p r st d t).cqReq
      writeQ := (s.recordAnswered p r st d t).writeQ } := by
  rw [show (s.startRecord p r).hold a c = _ from s.hold_rings a c none (s.startRecord p r).pairs (s.startRecord p r).procs s.cqReq
    (s.startRecord p r).writeQ]
  exact State.handAck_started s r p _ st d t rfl rfl

/-- Settles O20, each command by its own law. -/
theorem axisRequestsAtAConfiguredAxis : Obligations.AxisRequestsAtAConfiguredAxis := by
  intro s r p g a x hg
  refine ⟨exec_axisStart hg, exec_axisStop hg, fun h => ?halt, exec_axisSetPosition hg, exec_axisHome hg⟩
  case halt =>
    have ran : exec (.axisHalt r) s = .next (((s.startRecord p r).hold a .host).handAck p .ok 0 s.ts) :=
      congrArg _ (State.onAxis_configured _ h hg)
    rw [ran, State.startRecord_hold_handAck]
    exact ⟨_, rfl, rfl, rfl, rfl, rfl, rfl⟩


/-! ## Standing trips, and AXIS_RESUME (R28, R134) -/

/-- A trip that stands: a TRIPPED slot whose severity sends requests (R131, R134). -/
theorem Slot.standing_iff (m : Slot) (kd : SlotKind) : m.standing = some kd ↔
    ∃ k, m.config = some k ∧ m.state = .tripped ∧ (k.severity = .hold ∨ k.severity = .latch) ∧ k.kind = kd := by
  have holds (v : Severity) : v.holds = true ↔ v = .hold ∨ v = .latch := by cases v <;> simp [Severity.holds]
  unfold Slot.standing
  cases m.config with
  | none => simp
  | some k => simp [holds, and_assoc]

/-- A test of the elements of a vector, index by index. -/
theorem any_toList_iff {α : Type} {n : Nat} (v : Vector α n) (f : α → Bool) :
    v.toList.any f = true ↔ ∃ i : Fin n, f v[i] = true := by
  rw [List.any_eq_true]
  constructor
  · rintro ⟨x, hx, hf⟩
    obtain ⟨i, hi, rfl⟩ := List.getElem_of_mem hx
    exact ⟨⟨i, by simpa using hi⟩, by simpa using hf⟩
  · rintro ⟨i, hf⟩
    exact ⟨v[i], by simp, hf⟩

section
variable (s : State) (r : Record) (p : PairId) (a : AxisId)

@[simp] theorem State.startRecord_axisTripped : (s.startRecord p r).axisTripped a = s.axisTripped a := rfl

/-- The trips that refuse an AXIS_RESUME: those of a slot that names the axis, or a line bound to it (R28). -/
theorem State.axisTripped_iff : s.axisTripped a = true ↔ ∃ m kd, (s.slot m).standing = some kd ∧
    (kd.axis = some a ∨ ∃ n, kd.line = some n ∧ (s.line n).boundTo a = true) := by
  unfold State.axisTripped
  rw [any_toList_iff]
  refine exists_congr fun m => ?_
  rw [← State.slot]
  cases (s.slot m).standing with
  | none => simp
  | some kd => cases kd <;> simp [SlotKind.axis, SlotKind.line]

/-- The trips that hold an axis that is configured: those of a slot that names it (R12). -/
theorem State.axisTripNamed_iff : s.axisTripNamed a = true ↔ ∃ m kd, (s.slot m).standing = some kd ∧ kd.axis = some a := by
  unfold State.axisTripNamed
  rw [any_toList_iff]
  refine exists_congr fun m => ?_
  rw [← State.slot]
  cases (s.slot m).standing <;> simp

/-- The whole state after a HELD axis has resumed (R28). -/
theorem State.resume_eq (t : Target) : s.resume a t = { s with
    axes := s.axes.set a { s.axis a with state := t.state, causes := noCauses }
    lists := s.lists.set a { s.clist a with inbox := (s.clist a).inbox ++ [.unfreeze] }
    lines := Vector.ofFn fun n =>
      if (s.line n).boundTo a then { s.line n with fromAxis := (s.line n).fromAxis ++ [.resumed] } else s.line n } := rfl

end

/-- A line is bound to the axis of its COMPARE configuration. -/
theorem Line.boundTo_iff (l : Line) (a : AxisId) : l.boundTo a = true ↔ ∃ d, l.config = .compare a d := by
  unfold Line.boundTo
  cases l.config <;> simp

section
variable {s : State} {r : Record} {p : PairId} {g : AxisConfig} (hg : (s.axis (r.axisAt 8)).config = some g)
include hg

/-- AXIS_RESUME at a configured axis that is not HELD is refused (R28). -/
theorem exec_axisResume_refused (h : s.Takes r .axisResume p) (hh : (s.axis (r.axisAt 8)).isHeld = false) :
    exec (.axisResume r) s = .next (s.recordAnswered p r .axisState 0 s.ts) := by
  refine congrArg _ ((State.onAxis_configured _ h hg).trans ?_)
  unfold Axis.isHeld at hh
  cases hs : (s.axis (r.axisAt 8)).state with
  | held t => simp [hs] at hh
  | _ => simp [hs, State.startRecord_handAck]

/-- AXIS_RESUME at a HELD axis (R28). -/
theorem exec_axisResume_held (h : s.Takes r .axisResume p) (t : Target) (hh : (s.axis (r.axisAt 8)).state = .held t) :
    exec (.axisResume r) s = .next
      (if (s.axis (r.axisAt 8)).holdIn = true then s.recordAnswered p r .inhibited 0 s.ts
      else if s.axisTripped (r.axisAt 8) = true then s.recordAnswered p r .axisTripped 0 s.ts
      else ((s.startRecord p r).resume (r.axisAt 8) t).handAck p .ok 0 s.ts) := by
  refine congrArg _ ((State.onAxis_configured _ h hg).trans ?_)
  simp only [State.startRecord_axis, hh, State.startRecord_handAck, State.startRecord_axisTripped, State.startRecord_ts]

end

/-- Settles O21: the refusals in their order, and the trips that stand. -/
theorem axisResumeReleasesTheHold : Obligations.AxisResumeReleasesTheHold := by
  intro s r p g x a h hg
  refine ⟨exec_axisResume_refused hg h, fun hh => ?resume, ?trips⟩
  case resume =>
    rw [exec_axisResume_held hg h x hh, State.resume_eq]
    simp only [State.startRecord_axis, State.startRecord_clist, State.startRecord_line]
    refine congrArg _ (if_congr Iff.rfl rfl (if_congr Iff.rfl rfl ?_))
    exact s.startRecord_handAck_units r p .ok 0 s.ts ..
  case trips =>
    rw [State.axisTripped_iff]
    refine exists_congr fun m => ?_
    simp only [Slot.standing_iff, Line.boundTo_iff]
    constructor
    · rintro ⟨_, ⟨k, hk, ht, hv, rfl⟩, hn⟩
      refine ⟨k, hk, ht, hv, ?_⟩
      cases hkd : k.kind <;> simpa [hkd, SlotKind.axis, SlotKind.line] using hn
    · rintro ⟨k, hk, ht, hv, hn⟩
      refine ⟨k.kind, ⟨k, hk, ht, hv, rfl⟩, ?_⟩
      cases hkd : k.kind <;> simpa [hkd, SlotKind.axis, SlotKind.line] using hn

end Sys2Proof.Machine

namespace Sys2Proof.Machine

/-! ## The live entries of an axis (R11) -/

section
variable (s : State) (a : AxisId)

/-- The entries that a record in progress holds. -/
theorem Proc.exists_held_iff (x : Proc) (P : Entry → Prop) : (∃ e ∈ x.held, P e) ↔
    (∃ kd ck e pos, x = .busy kd ck (.inserting e pos) ∧ P e) ∨
    (∃ kd ck w c close, x = .busy kd ck (.appending w c close) ∧ P w.entry) := by
  constructor
  · unfold Proc.held
    split <;> simp
  · rintro (⟨kd, ck, e, pos, rfl, h⟩ | ⟨kd, ck, w, c, close, rfl, h⟩) <;> simpa [Proc.held] using h

/-- The entries that refuse a configuration, place by place: armed, activated, waiting, and held by a record (R11). -/
theorem State.axisHasEntries_iff : s.axisHasEntries a = true ↔
    (∃ b, ∃ y ∈ (s.clist b).entries, y.entry.axis = a) ∨
    (∃ b, ∃ k ∈ (s.clist b).activations, ∃ w ∈ k.entries, w.entry.axis = a) ∨
    (∃ c b, ((s.chan c).openBatch = some b ∨ b ∈ (s.chan c).closed) ∧ ∃ w ∈ b.entries, w.entry.axis = a) ∨
    ∃ q, ∃ e ∈ (s.proc q).held, e.axis = a := by
  simp only [State.axisHasEntries, State.liveEntries, State.armedEntries, State.waitingEntries, State.pendingEntries,
    List.any_append, List.any_flatMap, Bool.or_eq_true, any_toList_iff]
  have armed (l : CList) : (l.armed.any fun e => e.axis == a) = true ↔ ∃ y ∈ l.entries, y.entry.axis = a := by
    simp [CList.armed]
  have activated (l : CList) : (l.held.any fun e => e.axis == a) = true ↔
      ∃ k ∈ l.activations, ∃ w ∈ k.entries, w.entry.axis = a := by
    simp [CList.held]
  have waiting (x : Channel) : (x.waiting.any fun e => e.axis == a) = true ↔
      ∃ b, (x.openBatch = some b ∨ b ∈ x.closed) ∧ ∃ w ∈ b.entries, w.entry.axis = a := by
    simp [Channel.waiting, Channel.batches, or_and_right, exists_or]
  have held (x : Proc) : (x.held.any fun e => e.axis == a) = true ↔ ∃ e ∈ x.held, e.axis = a := by simp
  simp only [armed, activated, waiting, held]
  have order (A B C D : Prop) : (A ∨ C) ∨ D ∨ B ↔ A ∨ B ∨ C ∨ D := by tauto
  exact order ..

/-- A record that has been started holds no entry. -/
theorem State.startRecord_axisHasEntries (p : PairId) (r : Record) (h : s.proc p = .idle) :
    (s.startRecord p r).axisHasEntries a = s.axisHasEntries a := by
  rw [Bool.eq_iff_iff, State.axisHasEntries_iff, State.axisHasEntries_iff]
  have held (q : PairId) : ((s.startRecord p r).proc q).held = (s.proc q).held := by
    rw [State.startRecord_proc]
    split
    · next hq => subst hq; rw [h]; rfl
    · rfl
  simp only [State.startRecord_clist, State.startRecord_chan, held]

end

/-! ## AXIS_CONFIG (R11, R12) -/

section
variable (s : State) (a : AxisId)

/-- The state of an axis that has been configured, before HOLD_IN and the trips that stand are looked at. -/
def State.afresh (g : AxisConfig) : State := { s with
  axes := s.axes.set a ((s.axis a).configured g s.pins.encA[a] s.pins.encB[a])
  lists := s.lists.set a { s.clist a with nextArm := 0, frozen := false, inbox := [] }
  lines := Vector.ofFn fun n =>
    if (s.line n).boundTo a then { s.line n with fromAxis := (s.line n).fromAxis ++ [.stop] } else s.line n
  channels := Vector.ofFn fun c =>
    if (s.chan c).boundTo a then { s.chan c with inbox := (s.chan c).inbox ++ [.axisConfig] } else s.chan c }

/-- The trips that stand are a matter of the slots. -/
theorem State.axisTripNamed_of_slots {t : State} (h : t.slots = s.slots) : t.axisTripNamed a = s.axisTripNamed a := by
  rw [State.axisTripNamed, h, State.axisTripNamed]

theorem State.afresh_axis (g : AxisConfig) : (s.afresh a g).axis a = (s.axis a).configured g s.pins.encA[a] s.pins.encB[a] := by
  simp [State.afresh, State.axis]

theorem State.held_axis (c : Cause) (t : Target) :
    (s.held a c t).axis a = { s.axis a with state := .held t, causes := noCauses.add c } := by
  simp [State.held, State.axis]

/-- The whole state of an axis that has been configured and held. -/
theorem State.afresh_held (g : AxisConfig) (c : Cause) : (s.afresh a g).held a c .stopped = { s.afresh a g with
    axes := s.axes.set a { (s.axis a).configured g s.pins.encA[a] s.pins.encB[a] with
      state := .held .stopped, causes := noCauses.add c }
    lists := s.lists.set a { s.clist a with nextArm := 0, frozen := false, inbox := [.freeze] }
    lines := Vector.ofFn fun n =>
      if (s.line n).boundTo a then { s.line n with fromAxis := (s.line n).fromAxis ++ [.stop, .held] } else s.line n
    nqReq := s.nqReq ++ [.axisHeld a 0 c (noCauses.add c) .stopped s.ts] } := by
  have lineHeld (n : LineId) : (if ((s.afresh a g).line n).boundTo a
        then { (s.afresh a g).line n with fromAxis := ((s.afresh a g).line n).fromAxis ++ [.held] } else (s.afresh a g).line n) =
      if (s.line n).boundTo a then { s.line n with fromAxis := (s.line n).fromAxis ++ [.stop, .held] } else s.line n := by
    have line : (s.afresh a g).line n =
        if (s.line n).boundTo a then { s.line n with fromAxis := (s.line n).fromAxis ++ [.stop] } else s.line n := by
      simp [State.afresh, State.line]
    rw [line]
    by_cases hn : (s.line n).boundTo a = true
    · have stays : Line.boundTo { s.line n with fromAxis := (s.line n).fromAxis ++ [.stop] } a = true := hn
      simp [hn, stays]
    · simp [hn]
  have list : (s.afresh a g).clist a = { s.clist a with nextArm := 0, frozen := false, inbox := [] } := by
    simp [State.afresh, State.clist]
  simp only [State.held, State.afresh_axis, list, lineHeld]
  simp [State.afresh]
  rfl

@[simp] theorem State.startRecord_axisTripNamed (p : PairId) (r : Record) :
    (s.startRecord p r).axisTripNamed a = s.axisTripNamed a :=
  State.axisTripNamed_of_slots s a rfl

/-- An axis is configured afresh, then held for HOLD_IN and for a trip that stands (R12). -/
theorem State.configureAxis_afresh (g : AxisConfig) : s.configureAxis a g =
    let u := if (s.axis a).holdIn then (s.afresh a g).held a .inhibit .stopped else s.afresh a g
    if s.axisTripNamed a then u.hold a .trip else u := by
  have stopped : ((s.afresh a g).axis a).state = .stopped := by rw [State.afresh_axis]; rfl
  have holdIn : ((s.afresh a g).axis a).holdIn = (s.axis a).holdIn := by rw [State.afresh_axis]; rfl
  rw [← holdIn, ← State.hold_stopped .inhibit stopped]
  have configured : s.configureAxis a g =
    let u := if ((s.afresh a g).axis a).holdIn then (s.afresh a g).hold a .inhibit else s.afresh a g
    if u.axisTripNamed a then u.hold a .trip else u := rfl
  rw [configured]
  refine if_congr (Bool.eq_iff_iff.1 (State.axisTripNamed_of_slots s a ?_)) rfl rfl
  split
  · rw [State.hold_stopped .inhibit stopped]; rfl
  · rfl

/-- The whole state after a configuration (R12). -/
theorem State.configureAxis_eq (g : AxisConfig) :
    let x := s.axis a
    let trip := s.axisTripNamed a
    let held := x.holdIn || trip
    s.configureAxis a g = { s with
      axes := s.axes.set a
        { config := some g, state := if held then .held .stopped else .stopped
          causes := ⟨false, x.holdIn, trip, false⟩, position := 0, lastDir := none, serial := 0, refA := s.pins.encA[a]
          refB := s.pins.encB[a], prescaler := 0, homePending := false, prevIndex := false, net := 0, spacingError := false
          moved := 0, illegal := 0, holdIn := x.holdIn, tick := false, holdReqs := x.holdReqs }
      lists := s.lists.set a
        { s.clist a with nextArm := 0, frozen := false, inbox := if held then [.freeze] else [] }
      lines := Vector.ofFn fun n => if (s.line n).boundTo a
        then { s.line n with fromAxis := (s.line n).fromAxis ++ .stop :: if held then [.held] else [] } else s.line n
      channels := Vector.ofFn fun c =>
        if (s.chan c).boundTo a then { s.chan c with inbox := (s.chan c).inbox ++ [.axisConfig] } else s.chan c
      nqReq := s.nqReq ++
        (if x.holdIn then [.axisHeld a 0 .inhibit ⟨false, true, false, false⟩ .stopped s.ts] else []) ++
        (if trip then [.axisHeld a 0 .trip ⟨false, x.holdIn, true, false⟩ .stopped s.ts] else []) } := by
  intro x trip held
  rw [State.configureAxis_afresh]
  cases hx : (s.axis a).holdIn <;> cases ht : s.axisTripNamed a <;> simp only [Bool.false_eq_true, if_true, if_false]
  case false.false => simp [State.afresh, Axis.configured, held, x, trip, hx, ht, noCauses]
  case false.true =>
    rw [State.hold_stopped .trip (by rw [State.afresh_axis]; rfl), State.afresh_held]
    simp [State.afresh, Axis.configured, held, x, trip, hx, ht, noCauses, Causes.add]
  case true.false =>
    rw [State.afresh_held]
    simp [State.afresh, Axis.configured, held, x, trip, hx, ht, noCauses, Causes.add]
  case true.true =>
    rw [State.hold_held .trip .stopped (by rw [State.held_axis]), State.held_axis, State.afresh_axis, State.afresh_held]
    simp [State.afresh, Axis.configured, held, x, trip, hx, ht, noCauses, Causes.add, Causes.has]


end

/-- The test of an AXIS_CONFIG (R11). -/
theorem State.axisConfigTest_eq (s : State) (a : AxisId) : s.axisConfigTest a =
    if (s.axis a).state = .running ∨ (s.axis a).isHeld = true then some .axisState
    else if s.axisHasEntries a = true then some .axisHasEntries else none := by
  unfold State.axisConfigTest Axis.isHeld
  cases (s.axis a).state <;> simp

section
variable {s : State} {r : Record} {p : PairId} (h : s.Takes r .axisConfig p)
include h

/-- AXIS_CONFIG refused by its test (R11). -/
theorem exec_axisConfig_refused {st : Status} (ht : (s.startRecord p r).axisConfigTest (r.axisAt 8) = some st) :
    exec (.axisConfig r) s = .next (s.recordAnswered p r st 0 s.ts) := by
  refine congrArg _ ((s.onRecord_takes r _ p _ h).trans ?_)
  rw [ht]
  exact s.startRecord_handAck p r st 0 s.ts

/-- AXIS_CONFIG accepted (R12). -/
theorem exec_axisConfig_accepted (ht : (s.startRecord p r).axisConfigTest (r.axisAt 8) = none) :
    exec (.axisConfig r) s =
      .next (((s.startRecord p r).configureAxis (r.axisAt 8) r.axisConfig).handAck p .ok 0 s.ts) := by
  refine congrArg _ ((s.onRecord_takes r _ p _ h).trans ?_)
  rw [ht, State.configureAxis_eq]
  exact congrArg (State.handAck _ p .ok 0) rfl

end

/-- Settles O23: the test of the record, the configuration, and its entries and trips place by place. -/
theorem axisConfigStartsAfresh : Obligations.AxisConfigStartsAfresh := by
  intro s r p h idle a x trip held
  have test : (s.startRecord p r).axisConfigTest a = if x.state = .running ∨ x.isHeld = true then some .axisState
      else if s.axisHasEntries a = true then some .axisHasEntries else none := by
    rw [State.axisConfigTest_eq, State.startRecord_axisHasEntries s a p r idle, State.startRecord_axis]
  have fresh (hx : x.state = .unconfigured ∨ x.state = .stopped) : ¬ (x.state = .running ∨ x.isHeld = true) := by
    unfold Axis.isHeld
    rcases hx with hx | hx <;> simp [hx]
  refine ⟨fun hx => ?state, fun hx he => ?entries, fun hx he => ?configured, ?live, ?trips⟩
  case state => exact exec_axisConfig_refused h (test.trans (if_pos hx))
  case entries => exact exec_axisConfig_refused h (test.trans ((if_neg (fresh hx)).trans (if_pos he)))
  case configured =>
    have accepts := test.trans ((if_neg (fresh hx)).trans (if_neg (ne_true_of_eq_false he)))
    rw [exec_axisConfig_accepted h accepts, State.configureAxis_eq]
    simp only [State.startRecord_axis, State.startRecord_clist, State.startRecord_line, State.startRecord_chan,
      State.startRecord_ts, State.startRecord_pins, State.startRecord_axisTripNamed]
    exact congrArg _ (s.startRecord_handAck_units r p .ok 0 s.ts ..)
  case live =>
    rw [State.axisHasEntries_iff]
    simp only [Proc.exists_held_iff, exists_or]
  case trips =>
    rw [State.axisTripNamed_iff]
    refine exists_congr fun m => ?_
    simp only [Slot.standing_iff]
    constructor
    · rintro ⟨_, ⟨k, hk, ht, hv, rfl⟩, hn⟩
      refine ⟨k, hk, ht, hv, ?_⟩
      cases hkd : k.kind <;> simp_all [SlotKind.axis]
    · rintro ⟨k, hk, ht, hv, hn⟩
      refine ⟨k.kind, ⟨k, hk, ht, hv, rfl⟩, ?_⟩
      cases hkd : k.kind <;> simp_all [SlotKind.axis]

end Sys2Proof.Machine

namespace Sys2Proof.Machine

/-! ## The notices that a query takes (R117, R184) -/

section
variable (s : State) (n : LineId)

/-- A notice taken changes lines and hold requests alone (R117). -/
theorem State.takeNotice_frame (m : TripMsg) (rest : List TripMsg) : s.takeNotice n m rest =
    { s with axes := (s.takeNotice n m rest).axes, lines := (s.takeNotice n m rest).lines } := by
  cases m with
  | release => rfl
  | trip =>
    unfold State.takeNotice State.takeTrip
    dsimp only
    split <;> rfl

/-- A notice taken looks at no record in progress. -/
theorem State.takeNotice_procs (procs : Vector Proc 9) (m : TripMsg) (rest : List TripMsg) :
    { s with procs := procs }.takeNotice n m rest = { s.takeNotice n m rest with procs := procs } := by
  cases m with
  | release => rfl
  | trip =>
    dsimp only [State.takeNotice, State.takeTrip, State.updLine, State.line]
    split <;> rfl

theorem State.takeNotice_fromMonitor (m : TripMsg) (rest : List TripMsg) :
    ((s.takeNotice n m rest).line n).fromMonitor = rest := by
  have force (l : Line) : l.force.fromMonitor = l.fromMonitor := rfl
  have unforce (l : Line) : l.unforce.fromMonitor = l.fromMonitor := by unfold Line.unforce; split <;> rfl
  cases m with
  | release => simp [State.takeNotice, State.takeRelease, unforce]
  | trip =>
    unfold State.takeNotice State.takeTrip
    dsimp only
    split <;> simp [apply_ite Line.fromMonitor, force]

/-- The first of several notices is taken, then the others. -/
theorem State.takeNotices_cons (k : Nat) (m : TripMsg) (rest : List TripMsg) (h : (s.line n).fromMonitor = m :: rest) :
    s.takeNotices n (k + 1) = (s.takeNotice n m rest).takeNotices n k := by
  rw [State.takeNotices, h]

theorem State.takeNotices_nil (k : Nat) (h : (s.line n).fromMonitor = []) : s.takeNotices n k = s := by
  cases k with
  | zero => rfl
  | succ k => rw [State.takeNotices, h]

end

/-- Several notices taken change lines and hold requests alone. -/
theorem State.takeNotices_frame (n : LineId) (k : Nat) : ∀ s : State, s.takeNotices n k =
    { s with axes := (s.takeNotices n k).axes, lines := (s.takeNotices n k).lines } := by
  induction k with
  | zero => exact fun s => rfl
  | succ k ih =>
    intro s
    cases h : (s.line n).fromMonitor with
    | nil => rw [State.takeNotices_nil s n _ h]
    | cons m rest =>
      rw [State.takeNotices_cons s n k m rest h, ih (s.takeNotice n m rest), State.takeNotice_frame]

/-- Several notices taken look at no record in progress. -/
theorem State.takeNotices_procs (n : LineId) (procs : Vector Proc 9) (k : Nat) : ∀ s : State,
    { s with procs := procs }.takeNotices n k = { s.takeNotices n k with procs := procs } := by
  induction k with
  | zero => exact fun s => rfl
  | succ k ih =>
    intro s
    cases h : (s.line n).fromMonitor with
    | nil => rw [State.takeNotices_nil s n _ h]; exact State.takeNotices_nil _ n _ h
    | cons m rest =>
      rw [State.takeNotices_cons s n k m rest h, ← ih, ← State.takeNotice_procs]
      exact State.takeNotices_cons _ n k m rest h

/-- Notices taken one after the other. -/
theorem State.takeNotices_foldl (n : LineId) {Result : Type} (next : State → Result) (take : Result → TripMsg → Result)
    (taken : ∀ s m rest, (s.line n).fromMonitor = m :: rest → take (next s) m = next (s.takeNotice n m rest))
    (ms after : List TripMsg) : ∀ s : State, (s.line n).fromMonitor = ms ++ after →
      next (s.takeNotices n ms.length) = ms.foldl take (next s) := by
  induction ms with
  | nil => exact fun s _ => rfl
  | cons m rest ih =>
    intro s h
    rw [List.foldl_cons, taken s m _ h, List.length_cons, State.takeNotices_cons s n _ m _ h]
    exact ih _ (State.takeNotice_fromMonitor ..)

/-- What a query settles before its snapshot changes lines and hold requests alone. -/
theorem State.settle_frame (s : State) (o : QueryOf) : s.settle o =
    { s with axes := (s.settle o).axes, lines := (s.settle o).lines } := by
  cases o with
  | line n => exact State.takeNotices_frame n _ s
  | _ => rfl

/-- What a query settles looks at no record in progress. -/
theorem State.settle_procs (s : State) (o : QueryOf) (procs : Vector Proc 9) :
    { s with procs := procs }.settle o = { s.settle o with procs := procs } := by
  cases o with
  | line n => exact State.takeNotices_procs n procs _ s
  | _ => rfl

/-! ## The snapshot of a query (R184) -/

/-- A record whose step changes and that holds no entry before or after leaves the held entries as they are. -/
theorem State.setProc_pendingEntries (s : State) (p : PairId) (x : Proc) (h : x.held = (s.proc p).held) :
    (s.setProc p x).pendingEntries = s.pendingEntries := by
  have maps : (s.procs.set p x).toList.map Proc.held = s.procs.toList.map Proc.held := by
    have same : (s.procs.toList.map Proc.held).set p (s.proc p).held = s.procs.toList.map Proc.held := by
      convert List.set_getElem_self (as := s.procs.toList.map Proc.held) (i := p.val) (by simp) using 2
      simp [State.proc]
    rw [Vector.toList_set, List.map_set, h, same]
  simp only [State.pendingEntries, State.setProc, List.flatMap_def, maps]

/-- A snapshot shows nothing of how far a record has come that is acked or whose query is being answered. -/
theorem State.snapshotOf_querying (s : State) (p : PairId) (k : Byte) (c : W32) (stamp : Nat) (o : QueryOf)
    (h : s.proc p = .busy k c .acked) : (s.setProc p (.busy k c (.querying stamp))).snapshotOf o = s.snapshotOf o := by
  have discard (q : PairId) : (s.setProc p (.busy k c (.querying stamp))).discardFlag q = s.discardFlag q := by
    rw [State.discardFlag, State.setProc_proc, State.discardFlag]
    by_cases hp : p = 0
    · subst hp
      rw [if_pos rfl, h]
      rfl
    · rw [if_neg hp]
  have progress (q : PairId) : (s.setProc p (.busy k c (.querying stamp))).inProgress q = s.inProgress q := by
    rw [State.inProgress, State.setProc_proc, State.inProgress]
    by_cases hp : p = q
    · subst hp
      rw [if_pos rfl, h]
      rfl
    · rw [if_neg hp]
  have entries := s.setProc_pendingEntries p (.busy k c (.querying stamp)) (by rw [h]; rfl)
  cases o with
  | pair q => simp only [State.snapshotOf, State.pairSnapshot, discard, progress]; rfl
  | pool => simp only [State.snapshotOf, State.poolSnapshot, entries]; rfl
  | _ => rfl

/-! ## QUERY, QUERY_WRITE_DONE and CANCEL_AXIS (R182, R184, R185) -/

/-- QUERY, with its record in progress before the notices are taken and the snapshot is made. -/
theorem exec_query {s : State} {r : Record} {p : PairId} (fb : Vector Bool 16) (h : s.Takes r .query p) :
    let o := queryOf (r.u8 8) (r.u8 9)
    let t := s.recordTaken p r (.querying s.ts)
    let seen : State := { t with pins := { s.pins with fb := fb } }
    exec (.query r fb) s = .next { seen.settle o with
      writeQ := t.writeQ ++ [.snapshot (BitVec.ofNat 64 (r.u64 16)) ((seen.settle o).snapshotOf o)] } := by
  intro o t seen
  let u : State := { s.startRecord p r with pins := { s.pins with fb := fb } }
  have busy : u.proc p = .busy (r.byte 0) r.cookie .acked := (s.startRecord_proc p p r).trans (if_pos rfl)
  have frame := u.settle_frame o
  have ran : exec (.query r fb) s =
      .next (((u.settle o).queueSnapshot o (BitVec.ofNat 64 (r.u64 16))).setPhase p (.querying (u.settle o).ts)) :=
    congrArg _ (s.onRecord_takes r _ p _ h)
  have procs : (u.settle o).procs = u.procs := by rw [frame]
  have ts : (u.settle o).ts = s.ts := by rw [frame]; rfl
  have writes : (u.settle o).writeQ = u.writeQ := by rw [frame]
  have settled : (u.settle o).proc p = .busy (r.byte 0) r.cookie .acked := by rw [State.proc, procs]; exact busy
  have seen_eq : seen = u.setProc p (.busy (r.byte 0) r.cookie (.querying s.ts)) := by
    simp [seen, t, u, State.recordTaken, State.startRecord, State.setProc, State.updPair, State.nextHead]
  have seen_settle : seen.settle o = (u.settle o).setProc p (.busy (r.byte 0) r.cookie (.querying s.ts)) := by
    rw [seen_eq, State.setProc, State.settle_procs, State.setProc, procs]
  rw [ran, ts, seen_settle, State.snapshotOf_querying _ p _ _ s.ts o settled, ← show u.writeQ = t.writeQ from rfl, ← writes]
  exact congrArg _ (State.setPhase_busy ((u.settle o).queueSnapshot o _) p _ _ _ _ settled)

/-- Settles O60: the query, what it settles by induction over the notices, its answer, and CANCEL_AXIS. -/
theorem queriesWriteTheirSnapshot : Obligations.QueriesWriteTheirSnapshot := by
  intro s r p
  refine ⟨fun fb h => exec_query fb h, fun o => s.settle_unchanged o, fun n before after hm ha => ?notices,
    fun kd ck stamp addr data a b hp hb => ?done, fun g h hg => ?cancel⟩
  case notices => 
    have through : s.settle (.line n) = s.takeNotices n (before ++ [TripMsg.release]).length := by
      rw [State.settle, hm, throughRelease_append before after ha, List.length_append, List.length_singleton]
    rw [through]
    refine State.takeNotices_foldl n _ _ (fun u m rest hu => ?_) (before ++ [.release]) after s (by simpa using hm)
    cases m with
    | trip =>
      have meaning : exec (.lineTripNotice n) u = execLineTripNotice n u := rfl
      simp only [meaning, execLineTripNotice, hu]
    | release =>
      have meaning : exec (.lineReleaseNotice n) u = execLineReleaseNotice n u := rfl
      simp only [meaning, execLineReleaseNotice, hu]
  case done =>
    have proc : (s.proc 0).phase = some (.querying stamp) := by rw [hp]; rfl
    have ran (success : Bool) : exec (.queryWriteDone success) s =
        .next (s.endWrite.handAck 0 (if success then .ok else .busError) 0 stamp) := by
      have meaning : exec (.queryWriteDone success) s = execQueryWriteDone success s := rfl
      rw [meaning, execQueryWriteDone, hb, proc]
    have ack (st : Status) : s.endWrite.handAck 0 st 0 stamp = { s.withAck 0 kd ck st 0 stamp with onBus := none } :=
      State.handAck_busy s.endWrite 0 kd ck _ st 0 stamp hp
    exact ⟨(ran true).trans (congrArg _ (ack _)), (ran false).trans (congrArg _ (ack _))⟩
  case cancel =>
    exact congrArg _ ((State.onAxis_configured _ h hg).trans (s.startRecord_setPhase p r _))

end Sys2Proof.Machine

namespace Sys2Proof.Machine

/-! ## The state after a reset (R36, R54, R82, R102, R121, R141, R166) -/

theorem State.reset_axis (a : AxisId) : State.reset.axis a = blankAxis false false false := by
  simp [State.reset, State.cleared, State.axis, lowPins]
theorem State.reset_clist (a : AxisId) : State.reset.clist a = blankList := by simp [State.reset, State.cleared, State.clist]
theorem State.reset_chan (c : ChanId) : State.reset.chan c = blankChannel false := by
  simp [State.reset, State.cleared, State.chan, lowPins]
theorem State.reset_line (n : LineId) : State.reset.line n = blankLine false := by
  simp [State.reset, State.cleared, State.line, lowPins]
theorem State.reset_pair (p : PairId) : State.reset.pair p = if p = 0 then blankAdmin else absentPair := by
  simp [State.reset, State.cleared, State.pair]
theorem State.reset_proc (p : PairId) : State.reset.proc p = .idle := by simp [State.reset, State.cleared, State.proc]
theorem State.reset_requests (p : PairId) : State.reset.requests p = [] := by simp [State.reset, State.cleared, State.requests]
theorem State.reset_granted (p : PairId) : State.reset.granted p = false := rfl

/-- After a reset no entry is live. -/
theorem State.reset_liveEntries : State.reset.liveEntries = [] := by
  simp [State.liveEntries, State.armedEntries, State.waitingEntries, State.pendingEntries, State.reset, State.cleared, CList.armed,
    CList.held, blankList, Channel.waiting, Channel.batches, blankChannel, Proc.held, List.flatMap_eq_nil_iff]

theorem State.reset_positionsInRange : State.reset.PositionsInRange := by
  intro a g h
  rw [State.reset_axis] at h
  cases h

theorem State.reset_causesMatchHold : State.reset.CausesMatchHold := by
  intro a
  rw [State.reset_axis]
  decide

theorem State.reset_listsInOrder : State.reset.ListsInOrder := by
  intro a
  rw [State.reset_clist]
  exact ⟨.nil, fun pos => Nat.zero_le 8⟩

theorem State.reset_oneRecord : State.reset.OneRecord := by
  refine ⟨fun p _ => State.reset_proc p, fun p h => ?reserved, fun p => ?acks, fun p _ => ⟨State.reset_granted p, State.reset_proc p⟩,
    fun p h => ?deleting, fun p h => ?drained, ?admin⟩
  case reserved => simp [State.reset_granted, State.inProgress, State.reset_proc] at h
  case acks =>
    rw [State.reset_requests, State.reset_proc]
    rfl
  case deleting =>
    rw [State.reset_proc] at h
    cases h
  case drained =>
    rw [State.reset_proc] at h
    cases h
  case admin => rfl

theorem State.reset_entriesCounted : State.reset.EntriesCounted := by
  have live (p : PairId) : State.reset.pool.live[p] = 0 := by simp [State.reset, State.cleared, blankPool]
  have quota (p : PairId) : State.reset.pool.quota[p] = 0 := by simp [State.reset, State.cleared, blankPool]
  simp only [State.EntriesCounted, State.reset_liveEntries, State.reset_line, State.reset_proc, State.reset_chan, live, quota]
  refine ⟨rfl, fun p => ?_, fun p => Nat.le_refl 0, fun n => ?_, fun p e he => ?_, fun c b hb => ?_, fun p _ => trivial, fun n hn => ?_⟩
  · rfl
  · rfl
  · cases he
  · cases hb
  · exact (hn rfl).elim

theorem State.reset_onTheWay (ring : RingId) : State.reset.onTheWay ring = [] := rfl

/-- After a reset the Admin ring is empty, and no other ring is there. -/
theorem State.reset_ringsInOrder : State.reset.RingsInOrder := by
  have admin : State.reset.pair 0 = blankAdmin := State.reset_pair 0
  have absent {p : PairId} (hp : p ≠ 0) : State.reset.pair p = absentPair := (State.reset_pair p).trans (if_neg hp)
  refine ⟨fun p h => ?present, fun p h => ⟨?absent, rfl⟩, fun h => (h rfl).elim, fun _ => ⟨rfl, rfl⟩⟩
  case present =>
    by_cases hp : p = 0
    · subst hp
      rw [admin, State.reset_onTheWay]
      refine ⟨?_, by decide⟩
      simp [RingIndices, blankAdmin]
    · rw [absent hp] at h
      exact (h rfl).elim
  case absent =>
    by_cases hp : p = 0
    · subst hp
      rw [admin] at h
      cases h
    · rw [absent hp]

/-- Settles O34, invariant by invariant. -/
theorem resetMeetsTheInvariants : Obligations.ResetMeetsTheInvariants :=
  ⟨State.reset_positionsInRange, State.reset_causesMatchHold, State.reset_listsInOrder, State.reset_oneRecord,
    State.reset_entriesCounted, State.reset_ringsInOrder⟩

end Sys2Proof.Machine

namespace Sys2Proof.Machine

/-! ## Bytes that show their fields (R189) -/

/-- Bytes whose value is 0 are 0. -/
theorem eq_zero_of_field_eq_zero {d : List Byte} {offset n : Nat} (h : field d offset n = 0) (i : Nat) (lo : offset ≤ i)
    (hi : i < offset + n) (hl : i < d.length) : d[i]? = some 0 := by
  have bytes (l : List Byte) (hl : l.foldr (fun b v => b.toNat + 2 ^ 8 * v) 0 = 0) : ∀ b ∈ l, b = 0 := by
    induction l with
    | nil => exact fun _ => nofun
    | cons b rest ih =>
      rw [List.foldr_cons] at hl
      rintro x (_ | ⟨_, hx⟩)
      · exact BitVec.eq_of_toNat_eq (by simp; omega)
      · exact ih (by omega) x hx
  have mem : d[i] ∈ (d.drop offset).take n := by
    rw [List.mem_iff_getElem]
    exact ⟨i - offset, by simp; omega, by simp [Nat.add_sub_cancel' lo]⟩
  rw [List.getElem?_eq_getElem hl, bytes _ h _ mem]

/-- Bytes that show fields also show fewer of them, if those left out are 0; the order in which they are listed is of no matter. -/
theorem Shows.leave_out_zeros {d : List Byte} {l : Nat} {fs gs : Layout} (h : Shows d l fs) (hg : ∀ f ∈ gs, f ∈ fs)
    (hf : ∀ f ∈ fs, f ∈ gs ∨ f.2.2 = 0) : Shows d l gs := by
  obtain ⟨length, shown, rest⟩ := h
  refine ⟨length, fun f m => shown f (hg f m), fun i hi outside => ?_⟩
  by_cases inside : ∃ f ∈ fs, f.1 ≤ i ∧ i < f.1 + f.2.1
  · obtain ⟨f, m, lo, up⟩ := inside
    have zero : f.2.2 = 0 := (hf f m).resolve_left fun m' => by
      rcases outside f m' with h | h <;> omega
    have value := (shown f m).2
    rw [zero, Int.zero_emod] at value
    exact eq_zero_of_field_eq_zero (by exact_mod_cast value) i lo up (length ▸ hi)
  · exact rest i hi fun f m => by
      by_contra both
      exact inside ⟨f, m, by omega, by omega⟩

/-- Two layouts of the same bytes agree on a field that both have, up to its width. -/
theorem Shows.agree {d : List Byte} {l l' : Nat} {fs gs : Layout} (h : Shows d l fs) (h' : Shows d l' gs) (o n : Nat) (v w : Int)
    (hv : (o, n, v) ∈ fs) (hw : (o, n, w) ∈ gs) : v % 2 ^ (8 * n) = w % 2 ^ (8 * n) :=
  (h.2.1 _ hv).2.symm.trans (h'.2.1 _ hw).2

/-- A byte of flags is a field of one byte. -/
theorem Shows.flags {d : List Byte} {l : Nat} {fs : Layout} (h : Shows d l fs) (bits : List Bool) :
    Shows (d ++ flagByte bits) (l + 1) (fs ++ [(l, 1, (bitsNat bits : Int))]) :=
  h.le 1 (bitsNat bits)

/-- A byte is a field of one byte. -/
theorem Shows.byte {d : List Byte} {l : Nat} {fs : Layout} (h : Shows d l fs) (b : Byte) :
    Shows (d ++ [b]) (l + 1) (fs ++ [(l, 1, (b.toNat : Int))]) := by
  rw [byte_eq_le]
  exact h.le 1 b.toNat

/-- The two bytes with which a record or a notice begins: its code and its subject. -/
theorem Shows.head {n : Nat} (code : Byte) (subject : Fin n) (h : n ≤ 256) :
    Shows [code, BitVec.ofNat 8 subject] 2 [(0, 1, (code.toNat : Int)), (1, 1, (subject : Int))] := by
  have value : (BitVec.ofNat 8 subject).toNat = subject := by
    rw [BitVec.toNat_ofNat]
    exact Nat.mod_eq_of_lt (by omega)
  have shows := (Shows.empty.byte code).byte (BitVec.ofNat 8 subject)
  rwa [value] at shows

/-! ## Completion records and notices (R194) -/

/-- A completion record shows its fields. -/
theorem CqRequest.shows (q : CqRequest) (lost : Nat) : Shows (q.bytes lost) 32 (q.fields lost) := by
  cases q with
  | ack k =>
    exact ((((((((Shows.empty.byte 0x80).byte k.kind).le 2 lost).le 4 k.cookie.toNat).le 2 k.status.code).zeros 2).le 4
      k.detail).zeros 8).le 8 k.stamp
  | fire f =>
    exact (((((((Shows.head 0x81 f.axis (by decide)).le 2 lost).le 4 f.tag.toNat).leInt 4 f.pos).le 2 f.occurrence).le 1
      f.dir.code).flags [f.final]).le 8 f.serial |>.le 8 f.stamp
  | retire r =>
    exact (((((((Shows.head 0x82 r.axis (by decide)).le 2 lost).le 4 r.tag.toNat).leInt 4 r.pos).le 2 r.occurrence).le 1
      r.reason.code).zeros 1).le 8 r.serial |>.le 8 r.stamp

/-- A notice shows its fields. -/
theorem Notice.shows (n : Notice) (lost : Nat) : Shows (n.bytes lost) 32 (n.fields lost) := by
  have slot (code : Byte) (m : SlotId) (g : SlotConfig) (value run stamp : Nat) :=
    (((((((((Shows.head code m (by decide)).le 2 lost).le 4 value).le 1 g.kind.code).le 1 g.severity.code).le 1 g.kind.subject).le 1
      run).zeros 4).zeros 8).le 8 stamp
  cases n with
  | capture c pos activated held unclaimed serial stamp =>
    have shows := ((((((Shows.head 0xC0 c (by decide)).le 2 lost).leInt 4 pos).le 1 activated).flags [held, unclaimed]).zeros 6).le 8
      serial |>.le 8 stamp
    exact shows.leave_out_zeros (by simp [Notice.fields, bitsNat]) (by simp [Notice.fields, bitsNat])
  | homeDone a before after serial stamp =>
    exact (((((Shows.head 0xC1 a (by decide)).le 2 lost).leInt 4 before).leInt 4 after).zeros 4).le 8 serial |>.le 8 stamp
  | indexCorrected a before after serial stamp =>
    exact (((((Shows.head 0xC2 a (by decide)).le 2 lost).leInt 4 before).leInt 4 after).zeros 4).le 8 serial |>.le 8 stamp
  | axisHeld a pos cause set target stamp =>
    exact (((((((Shows.head 0xC3 a (by decide)).le 2 lost).leInt 4 pos).le 1 cause.code).le 1 set.code).le 1 target.code).zeros 5).zeros
      8 |>.le 8 stamp
  | monitorTripped m g value run stamp => exact slot 0xC4 m g value run stamp
  | monitorRecovered m g value run stamp => exact slot 0xC5 m g value run stamp

end Sys2Proof.Machine

namespace Sys2Proof.Machine

/-! ## Layouts compared offset by offset -/

/-- The field that a layout lists at the offset of a field. -/
def Layout.listedAt (fs : Layout) (g : Nat × Nat × Int) : Option (Nat × Nat × Int) := fs.find? fun f => f.1 == g.1

/-- What a layout says of the bytes of a field: its own field at that offset, and 0 where it lists none. -/
def Layout.valueAt (fs : Layout) (g : Nat × Nat × Int) : Nat × Nat × Int := (fs.listedAt g).getD (g.1, g.2.1, 0)

/-- Bytes that show a layout also show one that lists only fields of it, in any order, and leaves out none that is not 0: both are
read off offset by offset. -/
theorem Shows.of_listedAt {d : List Byte} {l : Nat} {fs gs : Layout} (h : Shows d l fs) (hg : gs.map fs.listedAt = gs.map some)
    (hf : fs.map gs.valueAt = fs) : Shows d l gs := by
  have listed (fs : Layout) (f g : Nat × Nat × Int) (h : fs.listedAt g = some f) : f ∈ fs := List.mem_of_find?_eq_some h
  refine h.leave_out_zeros (fun g m => ?_) fun f m => ?_
  · exact listed fs g g (List.map_inj_left.1 hg g m)
  · have value : gs.valueAt f = f := List.map_inj_left.1 (hf.trans (List.map_id fs).symm) f m
    cases hv : gs.listedAt f with
    | some g =>
      rw [Layout.valueAt, hv] at value
      exact .inl (value ▸ listed gs g f hv)
    | none =>
      rw [Layout.valueAt, hv] at value
      exact .inr (congrArg (fun f => f.2.2) value).symm

/-- A byte of four flags. -/
theorem Shows.flags_four {d : List Byte} {l : Nat} {fs : Layout} (h : Shows d l fs) (x y z w : Bool) :
    Shows (d ++ flagByte [x, y, z, w]) (l + 1)
      (fs ++ [(l, 1, (x.toNat + 2 * y.toNat + 4 * z.toNat + 8 * w.toNat : Int))]) := by
  have value : (bitsNat [x, y, z, w] : Int) = x.toNat + 2 * y.toNat + 4 * z.toNat + 8 * w.toNat := by
    simp [bitsNat]
    omega
  exact value ▸ h.flags [x, y, z, w]

/-! ## Snapshots (R197) -/

/-- The pair snapshot of the notice ring shows its fields. -/
theorem NoticeRing.shows (q : NoticeRing) : Shows q.snapshot 64 q.fields := by
  exact ((((((((((Shows.empty.le 1 q.state.code).zeros 5).le 2 q.size).zeros 8).le 8 q.base.toNat).zeros 4).le 2 q.write).le 2
    q.pub).le 2 q.done).zeros 2).le 4 q.pendLost |>.le 4 q.totLost |>.zeros 20

/-- The snapshot of an axis shows its fields. -/
theorem Axis.shows (x : Axis) : Shows x.snapshot 64 x.fields := by
  have shows : Shows x.snapshot 64 _ := Shows.empty.le 1 _ |>.le 1 _ |>.le 1 _ |>.le 1 _ |>.flags_four _ _ _ _ |>.le 1 _ |>.le 1 _
    |>.le 1 _ |>.leInt 4 _ |>.le 4 _ |>.le 8 _ |>.le 4 _ |>.le 4 _ |>.le 4 _ |>.leInt 4 _ |>.le 4 _ |>.le 2 _ |>.le 2 _ |>.le 1 _
    |>.le 1 _ |>.le 1 _ |>.le 1 _ |>.le 4 _ |>.leInt 8 _
  simp only [List.nil_append, List.cons_append, Nat.reduceAdd] at shows
  obtain ⟨config, _⟩ := x
  cases config with
  | none => exact shows.of_listedAt rfl rfl
  | some g =>
    obtain ⟨source, kind, _⟩ := g
    cases source <;> cases kind <;> exact shows.of_listedAt rfl rfl

/-- A byte of six flags. -/
theorem Shows.flags_six {d : List Byte} {l : Nat} {fs : Layout} (h : Shows d l fs) (x y z w u v : Bool) :
    Shows (d ++ flagByte [x, y, z, w, u, v]) (l + 1) (fs ++ [(l, 1,
      (x.toNat + 2 * y.toNat + 4 * z.toNat + 8 * w.toNat + 16 * u.toNat + 32 * v.toNat : Int))]) := by
  have value : (bitsNat [x, y, z, w, u, v] : Int) =
      x.toNat + 2 * y.toNat + 4 * z.toNat + 8 * w.toNat + 16 * u.toNat + 32 * v.toNat := by
    simp [bitsNat]
    omega
  exact value ▸ h.flags [x, y, z, w, u, v]

/-- The snapshot of a line shows its fields. -/
theorem Line.shows (l : Line) (fb : Bool) : Shows (l.snapshot fb) 64 (l.fields fb) := by
  have shows : Shows (l.snapshot fb) 64 _ := Shows.empty.le 1 _ |>.le 1 _ |>.le 1 _ |>.le 1 _ |>.le 1 _ |>.le 1 _ |>.le 1 _
    |>.le 1 _ |>.flags_six _ _ _ _ _ _ |>.le 1 _ |>.le 2 _ |>.le 4 _ |>.le 8 _ |>.le 8 _ |>.zeros 32
  simp only [List.nil_append, List.cons_append, Nat.reduceAdd] at shows
  obtain ⟨config, _⟩ := l
  cases config with
  | disabled => exact shows.of_listedAt rfl rfl
  | host d =>
    obtain ⟨polarity, safe, retrigger, feedback⟩ := d
    rcases feedback with _ | _ | _ <;> exact shows.of_listedAt rfl rfl
  | compare a d =>
    obtain ⟨polarity, safe, retrigger, feedback⟩ := d
    rcases feedback with _ | _ | _ <;> exact shows.of_listedAt rfl rfl

/-- The snapshot of a channel shows its fields. -/
theorem Channel.shows (c : Channel) : Shows c.snapshot 64 c.fields := by
  have shows : Shows c.snapshot 64 _ := Shows.empty.le 1 _ |>.le 1 _ |>.le 1 _ |>.le 1 _ |>.flags_four _ _ _ _ |>.le 1 _ |>.le 1 _
    |>.le 1 _ |>.leInt 4 _ |>.leInt 4 _ |>.le 4 _ |>.le 1 _ |>.le 1 _ |>.zeros 2 |>.le 4 _ |>.le 4 _ |>.le 8 _ |>.leInt 4 _
    |>.zeros 4 |>.le 8 _ |>.le 8 _
  have bit (b : Bool) : (b.toNat == 1) = b := by cases b <;> rfl
  obtain ⟨config, state, ref, rejected, unclaimed, last, openBatch, closed, inbox⟩ := c
  cases config with
  | none =>
    simp only [List.nil_append, List.cons_append, Nat.reduceAdd] at shows
    cases last <;> cases openBatch <;> cases closed <;> exact shows.of_listedAt rfl rfl
  | some g =>
    simp only [List.nil_append, List.cons_append, Nat.reduceAdd, bit] at shows
    obtain ⟨input, edge, axis, window, lockout, report⟩ := g
    cases window <;> cases last <;> cases openBatch <;> cases closed <;> exact shows.of_listedAt rfl rfl

/-- The snapshot of a slot shows its fields. -/
theorem Slot.shows (m : Slot) (g : Monitor) : Shows (m.snapshot g) 64 (m.fields g) := by
  have shows : Shows (m.snapshot g) 64 _ := Shows.empty.le 1 _ |>.le 1 _ |>.le 1 _ |>.le 1 _ |>.le 1 _ |>.le 1 _ |>.le 1 _ |>.le 1 _
    |>.flags_four _ _ _ _ |>.zeros 1 |>.le 2 _ |>.le 4 _ |>.le 4 _ |>.zeros 4 |>.le 8 _ |>.zeros 32
  simp only [List.nil_append, List.cons_append, Nat.reduceAdd] at shows
  obtain ⟨config, state, presentRun, absentRun, last, opening⟩ := m
  cases config with
  | none => cases last <;> exact shows.of_listedAt rfl rfl
  | some c =>
    obtain ⟨kind, qualify, severity⟩ := c
    cases last <;> cases severity <;> cases kind <;> exact shows.of_listedAt rfl rfl

/-- The snapshot of a pair shows its fields. -/
theorem State.pair_shows (s : State) (p : PairId) : Shows (s.pairSnapshot p) 64 (s.pairFields p) := by
  have shows : Shows (s.pairSnapshot p) 64 _ := Shows.empty.le 1 _ |>.le 1 _ |>.flags _ |>.le 1 _ |>.le 2 _ |>.le 2 _ |>.le 8 _
    |>.le 8 _ |>.le 2 _ |>.le 2 _ |>.le 2 _ |>.le 2 _ |>.le 2 _ |>.zeros 2 |>.le 4 _ |>.le 4 _ |>.zeros 20
  simp only [List.nil_append, List.cons_append, Nat.reduceAdd] at shows
  refine Eq.subst (motive := Shows _ 64) (congrArg₂ List.cons ?state (congrArg₂ List.cons rfl (congrArg₂ List.cons ?flags
    (congrArg₂ List.cons ?reserved rfl)))) shows
  case state =>
    unfold State.shownPairState
    by_cases hp : p = 0
    · cases hf : s.fault <;> simp [hp]
    · simp [hp]
  case flags =>
    have bits {x y z x' y' z' : Bool} (hx : x = x') (hy : y = y') (hz : z = z') : ((2, 1, (bitsNat [x, y, z] : Int)) : Nat × Nat × Int) =
        (2, 1, (x'.toNat + 2 * y'.toNat + 4 * z'.toNat : Int)) := by
      subst hx hy hz
      simp [bitsNat]
      omega
    refine bits ?discard ?granted ?progress
    case discard =>
      unfold State.discardFlag
      cases s.proc 0 with
      | idle => rfl
      | busy kind cookie ph => cases ph <;> rfl
    case granted =>
      unfold State.granted
      cases s.engine <;> rfl
    case progress => by_cases h : s.proc p = .idle <;> simp [State.inProgress, h]
  case reserved =>
    cases hr : (s.pair p).reserved <;> simp [Pair.reservedSlots, hr]

/-- The bytes of one pair in the snapshot of the pool. -/
def State.poolBlock (s : State) (p : PairId) : List Byte :=
  le 1 (if (s.pair p).state = .absent then 0 else 1) ++ zeros 1 ++ le 2 s.pool.quota[p] ++ le 2 s.pool.live[p]

/-- The bytes of one pair in the snapshot of the pool show its presence, its quota and its live entries. -/
theorem Shows.poolBlock {d : List Byte} {l : Nat} {fs : Layout} (h : Shows d l fs) (s : State) (p : PairId) :
    Shows (d ++ s.poolBlock p) (l + 6) (fs ++ [(l, 1, if (s.pair p).state = .absent then (0 : Int) else 1),
      (l + 2, 2, (s.pool.quota[p] : Int)), (l + 4, 2, (s.pool.live[p] : Int))]) := by
  have shows := h.le 1 (if (s.pair p).state = .absent then 0 else 1) |>.zeros 1 |>.le 2 s.pool.quota[p] |>.le 2 s.pool.live[p]
  rw [Nat.cast_ite] at shows
  simpa [State.poolBlock, Nat.add_assoc] using shows

/-- The snapshot of the pool shows its fields. -/
theorem State.pool_shows (s : State) : Shows s.poolSnapshot 64 s.poolFields := by
  have data : s.poolSnapshot = le 2 s.pool.free ++ le 2 s.pendingEntries.length ++ le 2 s.waitingEntries.length ++
      le 2 s.armedEntries.length ++ s.poolBlock 1 ++ s.poolBlock 2 ++ s.poolBlock 3 ++ s.poolBlock 4 ++ s.poolBlock 5 ++
      s.poolBlock 6 ++ s.poolBlock 7 ++ s.poolBlock 8 ++ zeros 8 := by
    simp [State.poolSnapshot, State.poolBlock]
  rw [data]
  exact Shows.empty.le 2 s.pool.free |>.le 2 _ |>.le 2 _ |>.le 2 _ |>.poolBlock s 1 |>.poolBlock s 2 |>.poolBlock s 3 |>.poolBlock s 4
    |>.poolBlock s 5 |>.poolBlock s 6 |>.poolBlock s 7 |>.poolBlock s 8 |>.zeros 8

/-- A snapshot shows its fields, object by object. -/
theorem State.snapshot_shows (s : State) (o : QueryOf) : Shows (s.snapshotOf o) 64 (s.fieldsOf o) := by
  cases o with
  | axis a => exact (s.axis a).shows
  | line n => exact (s.line n).shows s.pins.fb[n]
  | capture c => exact (s.chan c).shows
  | monitor m => exact (s.slot m).shows s.monitor
  | pair p => exact s.pair_shows p
  | notices => exact s.nq.shows
  | pool => exact s.pool_shows

end Sys2Proof.Machine

namespace Sys2Proof.Machine

/-! ## The bytes of a completion record tell it (R194) -/

section
variable {d : List Byte} {l l' : Nat} {fs gs : Layout} (h : Shows d l fs) (h' : Shows d l' gs)
include h h'

/-- Two layouts of the same bytes agree on a field that both list, up to its width. -/
theorem Shows.agree_listed (o n : Nat) {v w : Int} (hv : fs.listedAt (o, n, 0) = some (o, n, v))
    (hw : gs.listedAt (o, n, 0) = some (o, n, w)) : v % 2 ^ (8 * n) = w % 2 ^ (8 * n) :=
  h.agree h' o n v w (List.mem_of_find?_eq_some hv) (List.mem_of_find?_eq_some hw)

/-- They agree on an unsigned field that fits its width. -/
theorem Shows.agree_nat (o n : Nat) {v w : Nat} (hv : fs.listedAt (o, n, 0) = some (o, n, (v : Int)))
    (hw : gs.listedAt (o, n, 0) = some (o, n, (w : Int))) (bv : v < 2 ^ (8 * n)) (bw : w < 2 ^ (8 * n)) : v = w := by
  have values : v % 2 ^ (8 * n) = w % 2 ^ (8 * n) := by exact_mod_cast h.agree_listed h' o n hv hw
  rwa [Nat.mod_eq_of_lt bv, Nat.mod_eq_of_lt bw] at values

/-- They agree on a position. -/
theorem Shows.agree_position (o : Nat) {v w : Int} (hv : fs.listedAt (o, 4, 0) = some (o, 4, v))
    (hw : gs.listedAt (o, 4, 0) = some (o, 4, w)) (rv : -(2 ^ 31) ≤ v ∧ v < 2 ^ 31) (rw : -(2 ^ 31) ≤ w ∧ w < 2 ^ 31) : v = w := by
  have agree : v % 2 ^ 32 = w % 2 ^ 32 := h.agree_listed h' o 4 hv hw
  omega

end

/-- Codes that a list of all the values shows to be distinct tell their value. -/
theorem injective_of_codes {α : Type} {code : α → Nat} (all : List α) (distinct : (all.map code).Nodup) (mem : ∀ x, x ∈ all) :
    Function.Injective code :=
  fun x y h => List.inj_on_of_nodup_map distinct (mem x) (mem y) h

/-- The ack statuses in the order of their codes. -/
def Status.all : List Status :=
  [.ok, .lateFired, .passed, .crowded, .notFound, .poolEmpty, .quotaFull, .badKind, .badField, .notConfigured, .axisState,
    .axisHasEntries, .axisTripped, .inhibited, .indexMode, .notPending, .lineMode, .lineAxis, .lineInUse, .lineTripped,
    .channelOpenElsewhere, .channelHasEntries, .batchFull, .queueFull, .monitorTripped, .monitorLatched, .conditionPresent,
    .pairExists, .pairAbsent, .pairHasEntries, .timedOut, .aborted, .busError]

/-- The codes of the ack statuses (R193). -/
theorem Status.codes : Status.all.map Status.code = List.range 33 := by decide

theorem Status.mem_all (st : Status) : st ∈ Status.all := by cases st <;> decide

theorem Status.code_lt (st : Status) : st.code < 33 := by
  have mem := List.mem_map_of_mem (f := Status.code) st.mem_all
  rwa [Status.codes, List.mem_range] at mem

theorem Status.code_injective : Function.Injective Status.code :=
  injective_of_codes Status.all (Status.codes ▸ List.nodup_range) Status.mem_all

theorem Dir.code_injective : Function.Injective Dir.code :=
  injective_of_codes [.fwd, .rev] (by decide) fun d => by cases d <;> decide

theorem Reason.code_injective : Function.Injective Reason.code :=
  injective_of_codes [.endCrowded, .endRange, .actRange, .actPassed, .actCrowded] (by decide) fun x => by cases x <;> decide

theorem Dir.code_lt (d : Dir) : d.code < 3 := by cases d <;> decide

theorem Reason.code_lt (x : Reason) : x.code < 6 := by cases x <;> decide

theorem Bool.toNat_injective : Function.Injective Bool.toNat :=
  injective_of_codes [false, true] (by decide) fun b => by cases b <;> decide

/-- What fits the fields of a completion record (R194). -/
def CqRequest.Fits : CqRequest → Prop
  | .ack k => k.detail < 2 ^ 32 ∧ k.stamp < 2 ^ 64
  | .fire f => -(2 ^ 31) ≤ f.pos ∧ f.pos < 2 ^ 31 ∧ f.occurrence < 2 ^ 16 ∧ f.serial < 2 ^ 64 ∧ f.stamp < 2 ^ 64
  | .retire r => -(2 ^ 31) ≤ r.pos ∧ r.pos < 2 ^ 31 ∧ r.occurrence < 2 ^ 16 ∧ r.serial < 2 ^ 64 ∧ r.stamp < 2 ^ 64

section
variable {data : List Byte} {lost lost' : Nat}

/-- Bytes that show an ack show no other. -/
theorem Ack.eq_of_shows {k k' : Ack} (shows : Shows data 32 ((CqRequest.ack k).fields lost))
    (shows' : Shows data 32 ((CqRequest.ack k').fields lost')) (fits : (CqRequest.ack k).Fits) (fits' : (CqRequest.ack k').Fits) :
    k = k' := by
  obtain ⟨hd, hs⟩ := fits
  obtain ⟨hd', hs'⟩ := fits'
  have kind := shows.agree_nat shows' 1 1 rfl rfl k.kind.isLt k'.kind.isLt
  have cookie := shows.agree_nat shows' 4 4 rfl rfl k.cookie.isLt k'.cookie.isLt
  have status := shows.agree_nat shows' 8 2 rfl rfl (k.status.code_lt.trans (by decide)) (k'.status.code_lt.trans (by decide))
  have detail := shows.agree_nat shows' 12 4 rfl rfl hd hd'
  have stamp := shows.agree_nat shows' 24 8 rfl rfl hs hs'
  cases k
  cases k'
  simp only [Ack.mk.injEq]
  exact ⟨BitVec.eq_of_toNat_eq kind, BitVec.eq_of_toNat_eq cookie, Status.code_injective status, detail, stamp⟩

/-- Bytes that show a FIRE report show no other. -/
theorem FireReport.eq_of_shows {f f' : FireReport} (shows : Shows data 32 ((CqRequest.fire f).fields lost))
    (shows' : Shows data 32 ((CqRequest.fire f').fields lost')) (fits : (CqRequest.fire f).Fits) (fits' : (CqRequest.fire f').Fits) :
    f = f' := by
  obtain ⟨lp, up, ho, hserial, hs⟩ := fits
  obtain ⟨lp', up', ho', hserial', hs'⟩ := fits'
  have axis := shows.agree_nat shows' 1 1 rfl rfl (f.axis.isLt.trans (by decide)) (f'.axis.isLt.trans (by decide))
  have tag := shows.agree_nat shows' 4 4 rfl rfl f.tag.isLt f'.tag.isLt
  have pos := shows.agree_position shows' 8 rfl rfl ⟨lp, up⟩ ⟨lp', up'⟩
  have occurrence := shows.agree_nat shows' 12 2 rfl rfl ho ho'
  have dir := shows.agree_nat shows' 14 1 rfl rfl (f.dir.code_lt.trans (by decide)) (f'.dir.code_lt.trans (by decide))
  have final := shows.agree_nat shows' 15 1 rfl rfl (f.final.toNat_lt.trans (by decide)) (f'.final.toNat_lt.trans (by decide))
  have serial := shows.agree_nat shows' 16 8 rfl rfl hserial hserial'
  have stamp := shows.agree_nat shows' 24 8 rfl rfl hs hs'
  cases f
  cases f'
  simp only [FireReport.mk.injEq]
  exact ⟨Fin.ext axis, BitVec.eq_of_toNat_eq tag, pos, occurrence, Dir.code_injective dir, Bool.toNat_injective final, serial, stamp⟩

/-- Bytes that show a RETIRE report show no other. -/
theorem RetireReport.eq_of_shows {r r' : RetireReport} (shows : Shows data 32 ((CqRequest.retire r).fields lost))
    (shows' : Shows data 32 ((CqRequest.retire r').fields lost')) (fits : (CqRequest.retire r).Fits)
    (fits' : (CqRequest.retire r').Fits) : r = r' := by
  obtain ⟨lp, up, ho, hserial, hs⟩ := fits
  obtain ⟨lp', up', ho', hserial', hs'⟩ := fits'
  have axis := shows.agree_nat shows' 1 1 rfl rfl (r.axis.isLt.trans (by decide)) (r'.axis.isLt.trans (by decide))
  have tag := shows.agree_nat shows' 4 4 rfl rfl r.tag.isLt r'.tag.isLt
  have pos := shows.agree_position shows' 8 rfl rfl ⟨lp, up⟩ ⟨lp', up'⟩
  have occurrence := shows.agree_nat shows' 12 2 rfl rfl ho ho'
  have reason := shows.agree_nat shows' 14 1 rfl rfl (r.reason.code_lt.trans (by decide)) (r'.reason.code_lt.trans (by decide))
  have serial := shows.agree_nat shows' 16 8 rfl rfl hserial hserial'
  have stamp := shows.agree_nat shows' 24 8 rfl rfl hs hs'
  cases r
  cases r'
  simp only [RetireReport.mk.injEq]
  exact ⟨Fin.ext axis, BitVec.eq_of_toNat_eq tag, pos, occurrence, Reason.code_injective reason, serial, stamp⟩

end

/-- The first byte of a completion record (R194). -/
def CqRequest.code : CqRequest → Nat
  | .ack _ => 0x80
  | .fire _ => 0x81
  | .retire _ => 0x82

theorem CqRequest.listedAt_code (q : CqRequest) (lost : Nat) : (q.fields lost).listedAt (0, 1, 0) = some (0, 1, (q.code : Int)) := by
  cases q <;> rfl

theorem CqRequest.listedAt_lost (q : CqRequest) (lost : Nat) : (q.fields lost).listedAt (2, 2, 0) = some (2, 2, (lost : Int)) := by
  cases q <;> rfl

theorem CqRequest.code_lt (q : CqRequest) : q.code < 256 := by cases q <;> simp [CqRequest.code]

/-- The bytes of a completion record tell its lost count and every field of it. -/
theorem CqRequest.eq_of_bytes {q q' : CqRequest} {lost lost' : Nat} (fits : q.Fits) (fits' : q'.Fits) (hl : lost < 2 ^ 16)
    (hl' : lost' < 2 ^ 16) (e : q.bytes lost = q'.bytes lost') : q = q' ∧ lost = lost' := by
  have shows := q.shows lost
  have shows' := q'.shows lost'
  rw [← e] at shows'
  refine ⟨?_, shows.agree_nat shows' 2 2 (q.listedAt_lost lost) (q'.listedAt_lost lost') hl hl'⟩
  have code := shows.agree_nat shows' 0 1 (q.listedAt_code lost) (q'.listedAt_code lost') q.code_lt q'.code_lt
  match q, q' with
  | .ack k, .ack k' => exact congrArg _ (Ack.eq_of_shows shows shows' fits fits')
  | .fire f, .fire f' => exact congrArg _ (FireReport.eq_of_shows shows shows' fits fits')
  | .retire r, .retire r' => exact congrArg _ (RetireReport.eq_of_shows shows shows' fits fits')
  | .ack _, .fire _ | .ack _, .retire _ | .fire _, .ack _ | .fire _, .retire _ | .retire _, .ack _ | .retire _, .fire _ =>
    simp [CqRequest.code] at code

/-- Settles O53: the records, the notices and the snapshots field by field, and the codes. -/
theorem writtenBytesTellTheirRecord : Obligations.WrittenBytesTellTheirRecord := by
  unfold Obligations.WrittenBytesTellTheirRecord
  intro fits
  refine ⟨CqRequest.shows, fun q q' lost lost' hq hq' hl hl' e => ?bytes, Notice.shows, State.snapshot_shows, Status.codes, by decide,
    ⟨rfl, rfl, rfl, rfl, fun c => ?causes⟩, ?states, ?slots⟩
  case bytes => exact CqRequest.eq_of_bytes (by cases q <;> exact hq) (by cases q' <;> exact hq') hl hl' e
  case causes =>
    have bit (b : Bool) (n : Nat) : (if b then n else 0) = n * b.toNat := by cases b <;> simp
    simp only [Causes.code, bit, Cause.code]
    omega
  case states =>
    exact ⟨rfl, rfl, rfl, rfl, rfl, rfl, rfl, rfl, rfl, rfl, fun _ => rfl, rfl, rfl, rfl, fun _ => rfl, rfl, rfl, rfl, fun _ => rfl⟩
  case slots =>
    exact ⟨rfl, rfl, rfl, rfl, fun _ _ => ⟨rfl, rfl⟩, fun _ _ => ⟨rfl, rfl⟩, fun _ => ⟨rfl, rfl⟩, fun _ => ⟨rfl, rfl⟩, fun _ => rfl,
      rfl, rfl, rfl, rfl, rfl, rfl, rfl, rfl, rfl, rfl, rfl, rfl, rfl, rfl⟩

end Sys2Proof.Machine

namespace Sys2Proof.Machine

/-! ## What an operation leaves of the compare lists -/

section
variable (s : State)

/-- States with the same compare lists have the same list of each axis. -/
theorem State.clist_of_lists {s t : State} (h : t.lists = s.lists) (b : AxisId) : t.clist b = s.clist b := by
  simp only [State.clist, h]

/-! Operations that leave the lists alone -/

@[simp] theorem State.releaseAll_clist (es : List Entry) (b : AxisId) : (s.releaseAll es).clist b = s.clist b :=
  List.foldlRecOn (motive := fun u : State => u.clist b = s.clist b) es _ rfl fun u hu e _ => (u.release_clist e b).trans hu
@[simp] theorem State.retireAll_clist (es : List Entry) (b : AxisId) : (s.retireAll es).clist b = s.clist b :=
  List.foldlRecOn (motive := fun u : State => u.clist b = s.clist b) es _ rfl fun u hu e _ => (u.retire_clist e b).trans hu
@[simp] theorem State.reportRetire_clist (e : Entry) (x : Reason) (pos : Int) (serial stamp : Nat) (b : AxisId) :
    (s.reportRetire e x pos serial stamp).clist b = s.clist b := by
  unfold State.reportRetire; split <;> rfl
@[simp] theorem State.allocate_clist (p : PairId) (e : Entry) (b : AxisId) : (s.allocate p e).clist b = s.clist b := rfl
@[simp] theorem State.answer_clist (p : PairId) (x : Block) (n : Nat) (b : AxisId) : (s.answer p x n).clist b = s.clist b := by
  simp [State.answer]
@[simp] theorem State.answerExcluded_clist (p : PairId) (x : Block) (b : AxisId) :
    (s.answerExcluded p x).clist b = s.clist b := by simp [State.answerExcluded]
@[simp] theorem State.takeSample_clist (a : AxisId) (chA chB : Bool) (b : AxisId) :
    (s.takeSample a chA chB).clist b = s.clist b := rfl
@[simp] theorem State.prescalerAdvances_clist (a b : AxisId) : (s.prescalerAdvances a).clist b = s.clist b := rfl
@[simp] theorem State.indexPreset_clist (a : AxisId) (g : AxisConfig) (b : AxisId) :
    (s.indexPreset a g).clist b = s.clist b := by
  unfold State.indexPreset
  dsimp only
  repeat' split
  all_goals rfl
@[simp] theorem State.takeLevel_clist (c : ChanId) (input : InputId) (level : Bool) (b : AxisId) :
    (s.takeLevel c input level).clist b = s.clist b := rfl
@[simp] theorem State.removeWaiting_clist (p : PairId) (c : ChanId) (reaches : Entry → Bool) (f : Channel → Channel)
    (b : AxisId) : (s.removeWaiting p c reaches f).clist b = s.clist b := by simp [State.removeWaiting]
@[simp] theorem State.configureChan_clist (p : PairId) (c : ChanId) (g : Option ChanConfig) (discard : Bool) (b : AxisId) :
    (s.configureChan p c g discard).clist b = s.clist b := by
  unfold State.configureChan
  dsimp only
  repeat' split
  all_goals simp
@[simp] theorem State.endTickPulse_clist (n : LineId) (b : AxisId) : (s.endTickPulse n).clist b = s.clist b :=
  State.clist_of_lists (by rw [State.endTickPulse_frame]) b
@[simp] theorem State.takeNotice_clist (n : LineId) (m : TripMsg) (rest : List TripMsg) (b : AxisId) :
    (s.takeNotice n m rest).clist b = s.clist b := by
  cases m with
  | trip => unfold State.takeNotice State.takeTrip; dsimp only; split <;> rfl
  | release => rfl
@[simp] theorem State.settle_clist (q : QueryOf) (b : AxisId) : (s.settle q).clist b = s.clist b := by
  have taken (n : LineId) (k : Nat) : ∀ u : State, (u.takeNotices n k).clist b = u.clist b := by
    induction k with
    | zero => exact fun u => rfl
    | succ k ih =>
      intro u
      unfold State.takeNotices
      split
      · rw [ih, State.takeNotice_clist]
      · rfl
  unfold State.settle
  split
  · exact taken ..
  · rfl
@[simp] theorem State.takeCheck_clist (fb : Vector Bool 16) (b : AxisId) : (s.takeCheck fb).clist b = s.clist b := by
  have sent (u : State) (k : SlotKind) : (u.sendTrip k).clist b = u.clist b := by cases k <;> rfl
  unfold State.takeCheck State.check
  split
  · refine List.foldlRecOn (motive := fun u : State => u.clist b = s.clist b) _ _ ?_ fun u hu k _ => (sent u k).trans hu
    exact State.clist_of_lists (by simp [State.readCounters]) b
  · rfl
@[simp] theorem State.sendRelease_clist (m : SlotId) (b : AxisId) : (s.sendRelease m).clist b = s.clist b := by
  unfold State.sendRelease; split <;> rfl
@[simp] theorem State.setGlobal_clist (enable : Bool) (period : Nat) (b : AxisId) :
    (s.setGlobal enable period).clist b = s.clist b :=
  State.clist_of_lists (by unfold State.setGlobal; dsimp only; split <;> simp) b
@[simp] theorem State.timeOut_clist (p : PairId) (b : AxisId) : (s.timeOut p).clist b = s.clist b :=
  State.clist_of_lists (by rw [State.timeOut_frame]) b
@[simp] theorem State.setFault_clist (c : ErrorCause) (b : AxisId) : (s.setFault c).clist b = s.clist b := by
  unfold State.setFault State.dropSnapshot
  split
  · rfl
  · split
    · split
      · exact State.handAck_clist ..
      · rfl
    · rfl
@[simp] theorem State.pairError_clist (p : PairId) (c : ErrorCause) (b : AxisId) : (s.pairError p c).clist b = s.clist b := by
  unfold State.pairError
  split
  · simp
  · unfold State.setCause; split <;> rfl
@[simp] theorem State.endRead_clist (p : PairId) (b : AxisId) : (s.endRead p).clist b = s.clist b := rfl
@[simp] theorem State.grant_clist (p : PairId) (b : AxisId) : (s.grant p).clist b = s.clist b := rfl
@[simp] theorem State.takeRequest_clist (p : PairId) (r : CqRequest) (b : AxisId) :
    (s.takeRequest p r).clist b = s.clist b := by
  unfold State.takeRequest State.takeAck State.takeReport
  dsimp only
  repeat' split
  all_goals rfl
@[simp] theorem State.takeNotification_clist (n : Notice) (b : AxisId) : (s.takeNotification n).clist b = s.clist b := by
  unfold State.takeNotification
  repeat' split
  all_goals rfl
@[simp] theorem State.endWrite_clist (b : AxisId) : s.endWrite.clist b = s.clist b := rfl
@[simp] theorem State.recordError_clist (ring : RingId) (b : AxisId) : (s.recordError ring).clist b = s.clist b := by
  cases ring with
  | cq p => simp [State.recordError]
  | nq => rfl
@[simp] theorem State.answerStatus_clist (w : QueuedWrite) (stale : Bool) (b : AxisId) :
    (s.answerStatus w stale).clist b = s.clist b := by
  have published (ring : RingId) (v : Nat) : (s.publish ring v).clist b = s.clist b := by cases ring <;> rfl
  unfold State.answerStatus
  repeat' split
  · exact published ..
  all_goals rfl
@[simp] theorem State.setQuota_clist (p : PairId) (quota : Nat) (b : AxisId) : (s.setQuota p quota).clist b = s.clist b := rfl
@[simp] theorem State.queueZeros_clist (p : PairId) (b : AxisId) : (s.queueZeros p).clist b = s.clist b := rfl
@[simp] theorem State.abortBarrier_clist (p : PairId) (b : AxisId) : (s.abortBarrier p).clist b = s.clist b := by
  unfold State.abortBarrier; split <;> simp
@[simp] theorem State.startDiscard_clist (p : PairId) (b : AxisId) : (s.startDiscard p).clist b = s.clist b := by
  simp [State.startDiscard]
@[simp] theorem State.setNotices_clist (base : W64) (size : Nat) (b : AxisId) :
    (s.setNotices base size).clist b = s.clist b := rfl
@[simp] theorem State.queueSnapshot_clist (q : QueryOf) (addr : W64) (b : AxisId) :
    (s.queueSnapshot q addr).clist b = s.clist b := rfl
@[simp] theorem State.endCancel_clist (p : PairId) (x : Removing) (b : AxisId) : (s.endCancel p x).clist b = s.clist b := by
  unfold State.endCancel; split <;> simp
@[simp] theorem State.writeStatusBlockBase_clist (access : Access) (v : W64) (b : AxisId) :
    (s.writeStatusBlockBase access v).clist b = s.clist b := by
  unfold State.writeStatusBlockBase; split <;> rfl
@[simp] theorem State.writeAdminSqBase_clist (access : Access) (v : W64) (b : AxisId) :
    (s.writeAdminSqBase access v).clist b = s.clist b := by
  unfold State.writeAdminSqBase; split <;> rfl
@[simp] theorem State.writeAdminCqBase_clist (access : Access) (v : W64) (b : AxisId) :
    (s.writeAdminCqBase access v).clist b = s.clist b := by
  unfold State.writeAdminCqBase; split <;> rfl
@[simp] theorem State.writeAdminSizes_clist (v : W32) (b : AxisId) : (s.writeAdminSizes v).clist b = s.clist b := by
  unfold State.writeAdminSizes; dsimp only; split <;> rfl
@[simp] theorem State.writeSqPost_clist (p : PairId) (v : W32) (b : AxisId) : (s.writeSqPost p v).clist b = s.clist b := by
  have failed : (s.setCause p .postRange).clist b = s.clist b := by unfold State.setCause; split <;> rfl
  unfold State.writeSqPost
  dsimp only
  repeat' split
  all_goals simp [failed]
@[simp] theorem State.writeCqDone_clist (p : PairId) (v : W32) (b : AxisId) : (s.writeCqDone p v).clist b = s.clist b := by
  unfold State.writeCqDone
  dsimp only
  repeat' split
  all_goals simp
@[simp] theorem State.writeNqDone_clist (v : W32) (b : AxisId) : (s.writeNqDone v).clist b = s.clist b := by
  unfold State.writeNqDone
  dsimp only
  repeat' split
  all_goals rfl
@[simp] theorem State.writeIrqMask_clist (v : W32) (b : AxisId) : (s.writeIrqMask v).clist b = s.clist b := rfl

/-! Operations that leave the entries of the lists alone -/

theorem State.updList_entries (a b : AxisId) (f : CList → CList) (h : ∀ l, (f l).entries = l.entries) :
    ((s.updList a f).clist b).entries = (s.clist b).entries := by
  rw [State.updList_clist]
  split
  · next e => subst e; exact h _
  · rfl
@[simp] theorem State.tellList_entries (a : AxisId) (m : ListMsg) (b : AxisId) :
    ((s.tellList a m).clist b).entries = (s.clist b).entries := s.updList_entries a b _ fun _ => rfl
@[simp] theorem State.enterHeld_entries (a : AxisId) (c : Cause) (x : Target) (b : AxisId) :
    ((s.enterHeld a c x).clist b).entries = (s.clist b).entries := by
  simp [State.enterHeld, State.tellHeld]
@[simp] theorem State.hold_entries (a : AxisId) (c : Cause) (b : AxisId) :
    ((s.hold a c).clist b).entries = (s.clist b).entries := by
  unfold State.hold
  repeat' split
  all_goals simp
@[simp] theorem State.count_entries (a : AxisId) (d : Dir) (b : AxisId) :
    ((s.count a d).clist b).entries = (s.clist b).entries := by
  unfold State.count
  repeat' split
  all_goals simp [State.tellCount]
@[simp] theorem State.prescalerExpires_entries (a : AxisId) (d : Dir) (b : AxisId) :
    ((s.prescalerExpires a d).clist b).entries = (s.clist b).entries := by simp [State.prescalerExpires]
@[simp] theorem State.prescaleTick_entries (a b : AxisId) : ((s.prescaleTick a).clist b).entries = (s.clist b).entries := by
  unfold State.prescaleTick
  repeat' split
  all_goals simp
@[simp] theorem State.resume_entries (a : AxisId) (x : Target) (b : AxisId) :
    ((s.resume a x).clist b).entries = (s.clist b).entries := by simp [State.resume]
@[simp] theorem State.configureAxis_entries (a : AxisId) (g : AxisConfig) (b : AxisId) :
    ((s.configureAxis a g).clist b).entries = (s.clist b).entries := by
  have afresh (u : State) : ((u.updList a fun l => { l with nextArm := 0, frozen := false, inbox := [] }).clist b).entries =
      (u.clist b).entries := u.updList_entries a b _ fun _ => rfl
  unfold State.configureAxis
  dsimp only
  split <;> split <;> simp only [State.hold_entries, State.tellChans_clist, State.tellLines_clist, afresh, State.updAxis_clist]
@[simp] theorem State.captureEdge_entries (c : ChanId) (g : ChanConfig) (b : AxisId) :
    ((s.captureEdge c g).clist b).entries = (s.clist b).entries := by
  have reported (u : State) (k : Capture) (n : Nat) (held unclaimed : Bool) :
      (u.reportCapture c g k n held unclaimed).clist b = u.clist b := by
    unfold State.reportCapture; split <;> rfl
  unfold State.captureEdge State.afterLatch
  dsimp only
  repeat' split
  all_goals simp only [reported, State.updChan_clist]
  exact State.updList_entries _ _ b _ fun _ => rfl
/-- A pair that becomes ABSENT, block by block (R148, R151, log 14). -/
theorem State.becomeAbsent_eq (p : PairId) : s.becomeAbsent p = { s with
    pairs := s.pairs.set p { absentPair with cause := (s.pair p).cause }
    pool := ⟨s.pool.free, s.pool.quota.set p 0, s.pool.live.set p 0⟩
    channels := Vector.ofFn fun c => { s.chan c with openBatch := (s.chan c).openBatch.filter fun b => b.owner != p }
    lists := Vector.ofFn fun a => { s.clist a with discarding := (s.clist a).discarding.filter fun q => q != p }
    cqReq := s.cqReq.set p []
    onBus := s.onBus.map fun b => { b with stale := b.stale || b.write.ofPair p }
    writeQ := (s.writeQ.filter fun w => !w.ofPair p) ++ [.head p 0, .tail (.cq p) 0 false] } := by
  simp only [State.becomeAbsent, State.setQuota, State.updPair, State.updChans, State.updLists, State.setRequests, State.staleWhen,
    State.queueZeros, State.chan, State.clist]
@[simp] theorem State.becomeAbsent_clist (p : PairId) (b : AxisId) :
    (s.becomeAbsent p).clist b = { s.clist b with discarding := (s.clist b).discarding.filter fun q => q != p } := by
  rw [State.becomeAbsent_eq, State.clist]
  simp
@[simp] theorem State.advanceTime_entries (b : AxisId) : (s.advanceTime.clist b).entries = (s.clist b).entries := by
  rw [State.clist_of_lists (s := s) (by simp [State.advanceTime, State.offerTick])]
theorem CList.takeActivated_entries (l : CList) (which : Nat) : (l.takeActivated which).entries = l.entries := by
  unfold CList.takeActivated
  repeat' split
  all_goals rfl

end

end Sys2Proof.Machine

namespace Sys2Proof.Machine

/-! ## What can happen to the entries of a list (R55, R56) -/

/-- One event at the armed entries of a list. -/
inductive ListStep (l : List Armed) : List Armed → Prop
  /-- Entries leave: at a fire, at a removal, at a reset (R60, R76, R77, R82). -/
  | leave (l' : List Armed) (h : l'.Sublist l) : ListStep l l'
  /-- An entry is placed at a position that is not crowded (R56, R64, R68). -/
  | place (x : Armed) (h : (l.countP fun y => y.pos == x.pos) < Config.crowdLimit) : ListStep l (insertArmed x l)

/-- From `s` to `t` the entries of every list have gone through such events. -/
structure State.ListsReach (s t : State) : Prop where
  /-- The events of one list. -/
  events : ∀ a, Relation.ReflTransGen ListStep (s.clist a).entries (t.clist a).entries

theorem State.ListsReach.trans {s t u : State} (h : s.ListsReach t) (h' : t.ListsReach u) : s.ListsReach u :=
  ⟨fun a => (h.events a).trans (h'.events a)⟩

/-- Lists that hold the same entries have gone nowhere. -/
theorem State.ListsReach.of_entries {s t : State} (h : ∀ a, (t.clist a).entries = (s.clist a).entries) : s.ListsReach t :=
  ⟨fun a => h a ▸ .refl⟩

theorem State.ListsReach.refl (s : State) : s.ListsReach s := ⟨fun _ => .refl⟩

/-- A change that leaves the entries alone comes before what follows. -/
theorem State.ListsReach.after {s t u : State} (h : t.ListsReach u) (e : ∀ a, (t.clist a).entries = (s.clist a).entries) :
    s.ListsReach u := (State.ListsReach.of_entries e).trans h

/-- A change that leaves the entries alone comes after what has happened. -/
theorem State.ListsReach.before {s t u : State} (h : s.ListsReach t) (e : ∀ a, (u.clist a).entries = (t.clist a).entries) :
    s.ListsReach u := h.trans (.of_entries e)

/-- A change of one list by an event of its own. -/
theorem State.ListsReach.updList (s : State) (a : AxisId) (f : CList → CList)
    (h : ListStep (s.clist a).entries (f (s.clist a)).entries) : s.ListsReach (s.updList a f) := ⟨fun b => by
  rw [State.updList_clist]
  split
  · next e => subst e; exact .single h
  · exact .refl⟩

/-- Steps that are each made of events are so together. -/
theorem State.ListsReach.foldl {α : Type} (f : State → α → State) (h : ∀ (u : State) x, u.ListsReach (f u x)) (l : List α)
    (s : State) : s.ListsReach (l.foldl f s) :=
  List.foldlRecOn (motive := fun u : State => s.ListsReach u) l f (.refl s) fun u hu x _ => hu.trans (h u x)

/-- An ack handed changes no list. -/
theorem State.ListsReach.handAck {s t : State} (h : s.ListsReach t) (p : PairId) (st : Status) (d k : Nat) :
    s.ListsReach (t.handAck p st d k) := h.before fun b => by rw [State.handAck_clist]

/-- An answer to a removal changes no list. -/
theorem State.ListsReach.answer {s t : State} (h : s.ListsReach t) (p : PairId) (x : Block) (n : Nat) :
    s.ListsReach (t.answer p x n) := h.before fun b => by rw [State.answer_clist]

/-! ### Placing and removing -/

section
variable (s : State)

/-- Placing an entry where it makes no ninth (R56). -/
theorem State.ListsReach.place (a : AxisId) (e : Entry) (pos : Int) (order : Option Nat) (h : (s.clist a).crowded pos = false) :
    s.ListsReach (s.updList a fun l => l.place e pos order) := by
  have room : (s.clist a).countAt pos < Config.crowdLimit := by simpa [CList.crowded] using h
  refine .updList s a _ ?_
  cases order with
  | some o => exact .place ⟨e, pos, o⟩ room
  | none => exact .place ⟨e, pos, (s.clist a).nextArm⟩ room

/-- A removal, and the retirement of what it reaches (R76, R77). -/
theorem State.ListsReach.removeArmed (a : AxisId) (reaches : Entry → Bool) : s.ListsReach (s.removeArmed a reaches) := by
  refine (State.ListsReach.updList s a (fun l => { l with entries := l.entries.filter fun x => !reaches x.entry }) ?_).before
    fun b => by rw [State.removeArmed, State.retireAll_clist]
  exact .leave _ List.filter_sublist

/-! ### Fires (R60 to R67) -/

/-- The repeat advance places the entry where that makes no ninth, or retires it (R64, R65). -/
theorem State.ListsReach.advance (a : AxisId) (k : AxisKind) (e : Entry) (order : Option Nat) (f : FirePoint) :
    s.ListsReach (s.advance a k e order f) := by
  unfold State.advance
  split
  · exact .of_entries fun b => by simp
  · split
    · exact .of_entries fun b => by simp
    · next room => exact .place s a _ _ order (by simpa using room)

/-- A fire reports, and retires or advances the entry (R60). -/
theorem State.ListsReach.fire (a : AxisId) (k : AxisKind) (e : Entry) (order : Option Nat) (f : FirePoint) (reports : Bool) :
    s.ListsReach (s.fire a k e order f reports) := by
  unfold State.fire
  dsimp only
  split <;> split
  · exact .of_entries fun b => by simp
  · exact .of_entries fun b => by simp
  · exact (State.ListsReach.advance _ a k _ order f).after fun b => by simp
  · exact (State.ListsReach.advance _ a k _ order f).after fun b => by simp

/-- At a crossing an entry leaves the list and fires (R60). -/
theorem State.ListsReach.fireArmed (a : AxisId) (kind : AxisKind) (k : Count) (x : Armed) :
    s.ListsReach (State.fireArmed a kind k s x) :=
  (State.ListsReach.updList s a (fun l => l.remove x) (.leave _ List.erase_sublist)).trans (.fire ..)

/-- A message that a list takes (R57, R59, R75). -/
theorem State.ListsReach.takeListMsg (a : AxisId) (m : ListMsg) : s.ListsReach (s.takeListMsg a m) := by
  have popped (u : State) (f : CList → CList) (h : ∀ l, (f l).entries = l.entries) : u.ListsReach (u.updList a f) :=
    .of_entries fun b => u.updList_entries a b f h
  have front : s.ListsReach (s.popInbox a) := popped s _ fun _ => rfl
  cases m with
  | count k =>
    refine front.trans ?_
    unfold State.takeListMsg State.crossing
    dsimp only
    split
    · exact .refl _
    · split
      · exact .foldl _ (fun u x => .fireArmed u a _ k x) _ _
      · exact .refl _
  | freeze => exact front.trans (popped _ (fun l => { l with frozen := true }) fun _ => rfl)
  | unfreeze => exact front.trans (popped _ (fun l => { l with frozen := false }) fun _ => rfl)

theorem State.ListsReach.takeCounts (a : AxisId) : s.ListsReach (s.takeCounts a) :=
  State.takeCounts_keeps (fun u => s.ListsReach u) a (fun u m _ h _ => h.trans (.takeListMsg u a m)) s (.refl s)

theorem State.ListsReach.listBefore (n : LineId) : s.ListsReach (s.listBefore n) :=
  State.listBefore_keeps (fun u => s.ListsReach u) (fun u a m _ h _ => h.trans (.takeListMsg u a m)) s n (.refl s)

/-- What is taken before a tick (log 40). -/
theorem State.ListsReach.takeDue : s.ListsReach s.takeDue :=
  State.takeDue_keeps (fun u => s.ListsReach u) (fun u a h => h.before fun b => by simp)
    (fun u a m _ h _ => h.trans (.takeListMsg u a m)) (fun u n h => h.before fun b => by simp)
    (fun u p h => h.before fun b => by simp) (fun u fb h => h.before fun b => by simp) s (.refl s)

/-! ### Insertions (R68 to R74, R79) -/

/-- An insertion arms an entry only where that makes no ninth (R68, test 4). -/
theorem State.placement_arm {a : AxisId} {g : AxisConfig} {e : Entry} {pos : Int} (h : s.placement a g e pos = .arm) :
    (s.clist a).crowded pos = false := by
  unfold State.placement at h
  split at h
  · cases h
  · cases h
  · split at h
    · cases h
    · next room => simpa using room

theorem State.ListsReach.insertArm (p : PairId) (e : Entry) (pos : Int) (g : AxisConfig) :
    s.ListsReach (s.insertArm p e pos g) := by
  unfold State.insertArm
  dsimp only
  split
  · exact .of_entries fun b => by simp
  · split
    · exact .of_entries fun b => by simp
    · split
      · exact .of_entries fun b => by simp
      · exact .of_entries fun b => by simp
      · exact (State.ListsReach.fire ..).handAck ..
      · next armed => exact (State.ListsReach.place s _ e pos none (s.placement_arm armed)).handAck ..

theorem State.ListsReach.insertActivated (a : AxisId) (w : Waiting) (origin : Int) (g : AxisConfig) :
    s.ListsReach (s.insertActivated a w origin g) := by
  unfold State.insertActivated
  dsimp only
  split
  · exact .of_entries fun b => by simp
  · split
    · exact .of_entries fun b => by simp
    · split
      · exact .of_entries fun b => by simp
      · exact .of_entries fun b => by simp
      · exact .fire ..
      · next armed => exact .place s a _ _ none (s.placement_arm armed)

/-- An activation gives up its first entry, which is inserted or retired silently (R79, R151). -/
theorem State.ListsReach.takeActivated (a : AxisId) (which : Nat) : s.ListsReach (s.updList a fun l => l.takeActivated which) :=
  .of_entries fun b => s.updList_entries a b _ fun l => l.takeActivated_entries which

/-- A reset clears every list (R82). -/
theorem State.ListsReach.cleared (ts : Nat) (r : Option ResetCause) (c : ResetCause) (pins : Pins) (q : List Instr) :
    s.ListsReach (State.cleared ts r c pins q) := ⟨fun a => by
  have none : ((State.cleared ts r c pins q).clist a).entries = [] := by simp [State.clist, State.cleared, blankList]
  rw [none]
  exact .single (.leave _ (List.nil_sublist _))⟩

end

/-! ### The events of every command -/

/-- What a record does past step 3 (R170). -/
theorem State.ListsReach.onRecord (s : State) (r : Record) (k : Kind) (f : PairId → State → State)
    (h : ∀ p u b, ((f p u).clist b).entries = (u.clist b).entries) : s.ListsReach (s.onRecord r k f) := .of_entries fun b => by
  unfold State.onRecord
  split
  · next p _ =>
    dsimp only
    split
    · simp
    · rw [h, State.startRecord_clist]
  · rfl

/-- What a record of a configured axis does there. -/
theorem State.ListsReach.onAxis (s : State) (r : Record) (k : Kind) (f : PairId → AxisId → AxisConfig → State → State)
    (h : ∀ p a g u b, ((f p a g u).clist b).entries = (u.clist b).entries) : s.ListsReach (s.onAxis r k f) :=
  .onRecord s r k _ fun p u b => by
    split
    · exact h ..
    · simp

/-- A write to the register window, while READY is 1 (R142). -/
theorem State.ListsReach.whenReady (s : State) (f : State → State) (h : s.ListsReach (f s)) : s.ListsReach (s.whenReady f) := by
  unfold State.whenReady
  split
  · exact .refl s
  · exact h

/-- A write by offset leaves the lists alone, but for one that starts a soft reset (R143). -/
theorem State.ListsReach.writeRegister (s : State) (offset : BitVec 12) (v : W64) : s.ListsReach (s.writeRegister offset v) := by
  have same {t : State} (h : ∀ b, t.clist b = s.clist b) : s.ListsReach t := .of_entries fun b => by rw [h]
  have control (low : W32) : s.ListsReach (s.writeControl low) := by
    unfold State.writeControl State.softReset
    split
    · exact .cleared s ..
    · exact same fun _ => rfl
  have either {c : Prop} [Decidable c] {t u : State} (ht : s.ListsReach t) (hu : s.ListsReach u) :
      s.ListsReach (if c then t else u) := by
    split
    · exact ht
    · exact hu
  exact either (control _) <| either (same (by simp)) <| either (same (by simp)) <| either (same (by simp)) <|
    either (same (by simp)) <| either (same (by simp)) <| either (same (by simp)) <| either (same (by simp)) <|
    either (same (by simp)) <| either (same (by simp)) <| either (same (by simp)) <| either (same (by simp)) <| .refl s

/-- What a command answers, it reaches. -/
theorem State.ListsReach.of_next {s t u : State} (h : (.next u : Host.Outcome State Fault Refusal) = .next t)
    (hu : s.ListsReach u) : s.ListsReach t := by
  cases h
  exact hu

/-- Every command takes the entries of every list through events of their own: what a step can do to a list. -/
theorem exec_listsReach (c : Instr) (s t : State) (h : exec c s = .next t) : s.ListsReach t := by
  cases c
  case tick =>
    refine .of_next h ?_
    split
    · exact .refl s
    · exact (State.ListsReach.takeDue s).before fun b => by simp
  case fullReset => exact .of_next h (.cleared s ..)
  case softReset => exact .of_next h (.whenReady s _ (.cleared s ..))
  case registerWrite => exact .of_next h (.whenReady s _ (.writeRegister s ..))
  case listFreeze | listUnfreeze | listCountEvent =>
    refine .of_next h ?_
    split
    · exact .takeListMsg ..
    · exact .refl s
  case pulseEndCount n =>
    refine .of_next h ?_
    split
    · exact (State.ListsReach.listBefore s n).before fun b => by simp
    · exact .refl s
  case insertion =>
    refine .of_next h ?_
    split
    · split
      · exact (State.ListsReach.takeCounts ..).trans (.insertArm ..)
      · exact .refl s
    · exact .refl s
  case activationInsertion a which =>
    refine .of_next h ?_
    split
    · split
      · refine (State.ListsReach.takeCounts s a).trans ((State.ListsReach.takeActivated _ a which).trans ?_)
        dsimp only
        split
        · exact .of_entries fun b => by simp only [State.updProcs_clist, State.retire_clist]
        · exact .insertActivated ..
      · exact .refl s
    · exact .refl s
  case listCancel | listCancelAxis =>
    refine .of_next h ?_
    split
    · split
      · exact (State.ListsReach.removeArmed ..).answer ..
      · exact .refl s
    · exact .refl s
  case listDiscardPair a =>
    refine .of_next h ?_
    split
    · next p _ _ _ =>
      split
      · refine .answer (.before (.removeArmed s a fun e => e.owner == p) fun b => ?_) ..
        exact State.updList_entries _ a b _ fun _ => rfl
      · exact .refl s
    · exact .refl s
  case enableWrite => exact .of_next h (.whenReady s _ (.of_entries fun _ => rfl))
  case statusBlockBaseWrite | adminSqBaseWrite | adminCqBaseWrite | adminSizesWrite | sqPostWrite | cqDoneWrite | nqDoneWrite
      | irqMaskWrite => exact .of_next h (.whenReady s _ (.of_entries fun b => by simp))
  case axisStart | axisStop | axisHalt | axisResume | axisSetPosition | axisHome | cancelAxis =>
    exact .of_next h (.onAxis s _ _ _ fun p a g u b => by
      repeat' split
      all_goals simp)
  case nop | armDeferred | cancel | lineWrite | setNoticeRing | axisConfig | captureConfig | monitorGlobal =>
    exact .of_next h (.onRecord s _ _ _ fun p u b => by
      repeat' split
      all_goals simp)
  case arm | barrier | createPair | deletePair | lineConfig | monitorConfig | monitorRelease =>
    exact .of_next h (.onRecord s _ _ _ fun p u b => by
      dsimp only
      repeat' split
      all_goals simp)
  case query fb =>
    exact .of_next h (.onRecord s _ _ _ fun p u b => by
      rw [State.setPhase_clist, State.queueSnapshot_clist, State.settle_clist]
      rfl)
  case holdInAssertAxis => exact .of_next h (.of_entries fun b => by rw [State.hold_entries]; rfl)
  case holdInDeassertAxis | holdInAssertLine | holdInDeassertLine | inputReferenceUpdate =>
    exact .of_next h (.of_entries fun b => rfl)
  case pulseEndTick | checkEvent | barrierTimeout => exact .of_next h (.of_entries fun b => by simp)
  case removalAnswer =>
    refine .of_next h (.of_entries fun b => ?_)
    dsimp only
    repeat' split
    all_goals simp
  case postNotice =>
    refine .of_next h (.of_entries fun b => ?_)
    split
    · rw [State.takeNotification_clist]
      rfl
    · rfl
  case resetDone | writeIssue | recordWriteDone =>
    refine .of_next h (.of_entries fun b => ?_)
    repeat' split
    all_goals rfl
  all_goals -- no other command reaches an entry of a list
    refine .of_next h (.of_entries fun b => ?_)
    repeat' split
    all_goals simp

/-- A step of the block is a command on the queue's rest, or nothing. -/
theorem step_listsReach (s t : State) (h : step s = .next t) : s.ListsReach t := by
  unfold step at h
  split at h
  · exact (exec_listsReach _ _ t h).after fun _ => rfl
  · cases h
    exact .refl s

/-! ### What every event keeps, every step keeps -/

/-- Every event at a list keeps its order (R55). -/
theorem ListStep.inOrder {l l' : List Armed} (h : ListStep l l') (hl : l.Pairwise Armed.inOrder) : l'.Pairwise Armed.inOrder := by
  cases h with
  | leave _ h => exact hl.sublist h
  | place x _ => exact insertArmed_inOrder x l hl

/-- Every event at a list keeps it uncrowded (R56). -/
theorem ListStep.uncrowded {l l' : List Armed} (h : ListStep l l') (pos : Int)
    (hl : (l.countP fun y => y.pos == pos) ≤ Config.crowdLimit) : (l'.countP fun y => y.pos == pos) ≤ Config.crowdLimit := by
  cases h with
  | leave _ h => exact (h.countP_le).trans hl
  | place x room =>
    rw [(insertArmed_perm x l).countP_eq]
    by_cases here : x.pos = pos
    · subst here
      rw [List.countP_cons_of_pos (by simp)]
      exact room
    · rwa [List.countP_cons_of_neg (by simpa using here)]

/-- An invariant of a list that every event keeps. -/
theorem State.ListsReach.keeps {s t : State} (h : s.ListsReach t) (P : List Armed → Prop)
    (step : ∀ l l', ListStep l l' → P l → P l') (a : AxisId) (hs : P (s.clist a).entries) : P (t.clist a).entries := by
  have events := h.events a
  generalize (t.clist a).entries = l at events
  induction events with
  | refl => exact hs
  | tail _ one ih => exact step _ _ one ih

/-- Settles O31: every step takes a list through entries that leave and entries placed where they make no ninth, and each of the two
keeps the order and the crowd limit. -/
theorem listsStayInOrderAndUncrowded : Obligations.ListsStayInOrderAndUncrowded := by
  intro s t hs h a
  have reach := step_listsReach s t h
  obtain ⟨order, room⟩ := hs a
  exact ⟨reach.keeps (List.Pairwise Armed.inOrder) (fun _ _ one => one.inOrder) a order,
    fun pos => reach.keeps (fun l => (l.countP fun y => y.pos == pos) ≤ Config.crowdLimit)
      (fun _ _ one => one.uncrowded pos) a (room pos)⟩

end Sys2Proof.Machine

namespace Sys2Proof.Machine

/-! ## What a list takes from its inbox (R57, R59, R75) -/

/-- A list at which no entry stands that a count event fires, or that is frozen, fires nothing at it (R59, R62). -/
theorem State.crossing_unchanged (s : State) (a : AxisId) (k : Count)
    (h : (s.clist a).frozen = true ∨ ∀ x ∈ (s.clist a).entries, x.pos ≠ k.pos ∨ x.entry.qual.accepts k.dir = false) :
    s.crossing a k = s := by
  rcases h with frozen | none
  · exact s.crossing_frozen a k frozen
  · have firing : (s.clist a).firing k = [] := List.filter_eq_nil_iff.2 fun x hx => by
      rcases none x hx with pos | dir
      · simp [pos]
      · simp [dir]
    unfold State.crossing
    rw [firing]
    split
    · rfl
    · split <;> rfl

/-- Settles O24, message by message. -/
theorem frozenListFiresNothing : Obligations.FrozenListFiresNothing := by
  intro s a k rest l
  have popped (m : ListMsg) (h : l.inbox = m :: rest) :
      s.popInbox a = { s with lists := s.lists.set a { l with inbox := rest } } := by
    simp only [State.popInbox, State.updList, l, h, List.tail_cons]
  refine ⟨fun h => ?freeze, fun h => ?unfreeze, fun h quiet => ?count, s.takeCounts_none a, fun m t h count ht => ?first⟩
  case freeze =>
    refine (exec_listMsg s a .freeze rest h).trans ?_
    simp [State.takeListMsg, popped _ h, State.updList, State.clist, l]
  case unfreeze =>
    refine (exec_listMsg s a .unfreeze rest h).trans ?_
    simp [State.takeListMsg, popped _ h, State.updList, State.clist, l]
  case count =>
    rw [← popped _ h]
    refine (exec_listMsg s a (.count k) rest h).trans (congrArg _ (State.crossing_unchanged _ a k ?_))
    simpa [State.popInbox] using quiet
  case first =>
    have taken : exec (m.command a) s = .next t := by cases m <;> exact ht
    rw [exec_listMsg s a m rest h] at taken
    cases taken
    exact s.takeCounts_cons a m rest h count

/-! ## The late test (R69, R70) -/

/-- A difference of two positions of a ROTARY axis, modulo the modulus (R21, R70). -/
theorem rotary_sub (m : Nat) (x y : Int) (hx : 0 ≤ x) (hxm : x < m) (hy : 0 ≤ y) (hym : y < m) :
    (x - y) % m = if y ≤ x then x - y else x - y + m := by
  split
  · exact Int.emod_eq_of_lt (by omega) (by omega)
  · rw [← Int.add_emod_right]
    exact Int.emod_eq_of_lt (by omega) (by omega)

/-- The late test finds an entry late in a direction exactly when its conditions hold (R69, R70). -/
theorem State.lateTest_eq_some (s : State) (a : AxisId) (g : AxisConfig) (e : Entry) (pos : Int) (d : Dir) :
    s.lateTest a g e pos = some d ↔
      (s.clist a).frozen = false ∧ (s.axis a).lastDir = some d ∧ e.qual.accepts d = true ∧
        0 ≤ g.kind.behind d (s.axis a).position pos ∧ g.kind.behind d (s.axis a).position pos ≤ g.lateWindow := by
  unfold State.lateTest
  cases (s.clist a).frozen with
  | true => simp
  | false =>
    cases (s.axis a).lastDir with
    | none => simp
    | some d' =>
      simp only [Bool.false_eq_true, if_false, true_and, Option.some.injEq, Option.ite_none_right_eq_some]
      constructor
      · rintro ⟨late, rfl⟩
        exact ⟨rfl, late⟩
      · rintro ⟨rfl, late⟩
        exact ⟨late, rfl⟩

/-- Settles O28: the test by its conditions, and the behind distance of each kind of axis. -/
theorem lateTestLooksBehind : Obligations.LateTestLooksBehind := by
  intro s a g e pos d
  exact ⟨s.lateTest_eq_some a g e pos d, fun x => ⟨rfl, rfl⟩, fun m x hx hxm hp hpm =>
    ⟨rotary_sub m x pos hx hxm hp hpm, rotary_sub m pos x hp hpm hx hxm⟩⟩

/-! ## The end of a drain (R150, R151) -/

/-- The writes of a pair's own are its records, its heads and its tails (R151). -/
theorem QueuedWrite.ofPair_iff (w : QueuedWrite) (q : PairId) :
    w.ofPair q = true ↔ (∃ slot next data, w = .record (.cq q) slot next data) ∨ (∃ v, w = .head q v) ∨
      ∃ v publishes, w = .tail (.cq q) v publishes := by
  cases w <;> simp [QueuedWrite.ofPair]

/-- The writes that are not of a pair's own carry no tail of the pair's ring. -/
theorem tailValues_of_not_ofPair (q : PairId) (ws : List QueuedWrite) (h : ∀ w ∈ ws, w.ofPair q = false) :
    tailValues (.cq q) ws = ([], []) := by
  unfold tailValues
  rw [Prod.mk.injEq, List.filterMap_eq_nil_iff, List.filterMap_eq_nil_iff]
  constructor <;> intro w hw
  · match w, h w hw with
    | .tail r v true, other => simpa [QueuedWrite.ofPair] using other
    | .tail _ _ false, _ | .record _ _ _ _, _ | .head _ _, _ | .snapshot _ _, _ => rfl
  · match w, h w hw with
    | .record r _ _ _, other => simpa [QueuedWrite.ofPair] using other
    | .tail _ _ _, _ | .head _ _, _ | .snapshot _ _, _ => rfl

/-- The two zeros of the status block carry no tail that is published (R147). -/
theorem tailValues_zeros (q : PairId) (ring : RingId) (ws : List QueuedWrite) :
    tailValues ring (ws ++ [.head q 0, .tail (.cq q) 0 false]) = tailValues ring ws := by
  simp [tailValues]

section
variable (s : State) (q : PairId)

@[simp] theorem State.becomeAbsent_proc (p : PairId) : (s.becomeAbsent q).proc p = s.proc p := by
  rw [State.becomeAbsent_eq]
  rfl

@[simp] theorem State.becomeAbsent_requests (p : PairId) :
    (s.becomeAbsent q).requests p = if q = p then [] else s.requests p := by
  rw [State.becomeAbsent_eq]
  exact s.setRequests_requests q p []

@[simp] theorem State.becomeAbsent_chan (c : ChanId) :
    (s.becomeAbsent q).chan c = { s.chan c with openBatch := (s.chan c).openBatch.filter fun b => b.owner != q } := by
  rw [State.becomeAbsent_eq, State.chan]
  simp

/-- No write on its way moves the published tail of a pair that has become ABSENT (R151). -/
theorem State.becomeAbsent_onTheWay : (s.becomeAbsent q).onTheWay (.cq q) = [] := by
  have queued : ∀ w ∈ s.writeQ.filter (fun w => !w.ofPair q), w.ofPair q = false := fun w hw => by
    simpa using (List.mem_filter.1 hw).2
  rw [State.becomeAbsent_eq]
  unfold State.onTheWay
  dsimp only
  rw [← List.append_assoc, tailValues_zeros, tailValues_of_not_ofPair q]
  · rfl
  · intro w hw
    rcases List.mem_append.1 hw with bus | hw
    · cases hb : s.onBus with
      | none => simp [hb] at bus
      | some b =>
        cases own : b.write.ofPair q with
        | true => simp [hb, own] at bus
        | false =>
          simp only [hb, own, Option.map_some, Bool.or_false] at bus
          split at bus
          · cases bus
          · rw [List.mem_singleton.1 bus, own]
    · exact queued w hw

end

theorem exec_drainEnd_eq (s : State) : exec .drainEnd s = execDrainEnd s := rfl

theorem exec_discardComplete_eq (s : State) : exec .discardComplete s = execDiscardComplete s := rfl

/-- A DRAIN_END finds what it drains (R150). -/
theorem exec_drainEnd_draining (s : State) (kd : Byte) (ck : W32) (q : PairId) (discard : Bool)
    (h : s.proc 0 = .busy kd ck (.draining q discard)) :
    exec .drainEnd s = .next (if s.granted q || s.inProgress q then s
      else if discard then s.startDiscard q
      else if s.pool.live[q] = 0 then (s.becomeAbsent q).handAck 0 .ok 0 s.ts
      else (s.updPair q Pair.undrained).handAck 0 .pairHasEntries s.pool.live[q] s.ts) := by
  simp only [exec_drainEnd_eq, execDrainEnd, h, Proc.phase]

/-- A DISCARD_COMPLETE finds what is discarded, once its live count has reached 0 (R151). -/
theorem exec_discardComplete_emptied (s : State) (kd : Byte) (ck : W32) (q : PairId) (rm : Removing) (stamp : Nat)
    (h : s.proc 0 = .busy kd ck (.discarding q rm (some stamp))) :
    exec .discardComplete s =
      .next (if rm.done = true ∧ s.pool.live[q] = 0 then (s.becomeAbsent q).handAck 0 .ok rm.sum stamp else s) := by
  simp only [exec_discardComplete_eq, execDiscardComplete, h, Proc.phase]

/-- Before that, it changes nothing. -/
theorem exec_discardComplete_occupied (s : State) (kd : Byte) (ck : W32) (q : PairId) (rm : Removing)
    (h : s.proc 0 = .busy kd ck (.discarding q rm none)) : exec .discardComplete s = .next s := by
  simp only [exec_discardComplete_eq, execDiscardComplete, h, Proc.phase]

/-- A removal is done when every block has answered and every answer is taken. -/
theorem Removing.done_iff (x : Removing) : x.done = true ↔ x.todo = [] ∧ x.answers = [] := by
  simp [Removing.done]

/-- Settles O58: the pair that becomes ABSENT place by place, and the two commands by their tests in order. -/
theorem drainsEndInTheirWays : Obligations.DrainsEndInTheirWays := by
  intro s q kd ck hq live gone
  have deleted {ph : Phase} (h : s.proc 0 = .busy kd ck ph) (detail stamp : Nat) :
      gone ((s.becomeAbsent q).handAck 0 .ok detail stamp) detail stamp := by
    rw [State.handAck_busy _ 0 kd ck ph .ok detail stamp (by rw [State.becomeAbsent_proc, h])]
    refine ⟨?frame, s.becomeAbsent_onTheWay q, fun p => ?requests, s.becomeAbsent_clist q, s.becomeAbsent_chan q⟩
    case frame =>
      rw [State.becomeAbsent_eq]
      rfl
    case requests =>
      have acked : ((s.becomeAbsent q).withAck 0 kd ck .ok detail stamp).requests p =
          if 0 = p then (s.becomeAbsent q).requests 0 ++ [.ack ⟨kd, ck, .ok, detail, stamp⟩]
          else (s.becomeAbsent q).requests p :=
        (s.becomeAbsent q).setRequests_requests 0 p _
      rw [acked, State.becomeAbsent_requests, State.becomeAbsent_requests, if_neg hq]
      by_cases admin : p = 0
      · simp [admin, hq.symm]
      · simp [admin, Ne.symm admin, eq_comm]
  refine ⟨fun discard h => ?drain, fun rm z h => ?discard, fun w => w.ofPair_iff q⟩
  case drain =>
    rw [exec_drainEnd_draining s kd ck q discard h]
    refine ⟨fun busy => ?waits, fun free idle => ?ended⟩
    case waits =>
      have waits : (s.granted q || s.inProgress q) = true := by simpa [State.inProgress] using busy
      rw [if_pos waits]
    have ended : ¬(s.granted q || s.inProgress q) = true := by simp [State.inProgress, free, idle]
    rw [if_neg ended]
    refine ⟨fun plain empty => ?deleted, fun plain entries => ?refused, fun forced => ?discards⟩
    case deleted => exact ⟨_, by rw [plain, if_neg Bool.false_ne_true, if_pos empty], deleted h 0 s.ts⟩
    case refused =>
      rw [plain, if_neg Bool.false_ne_true, if_neg entries,
        State.handAck_busy (s.updPair q Pair.undrained) 0 kd ck (.draining q discard) _ _ _ h]
      rfl
    case discards =>
      rw [if_pos forced, State.startDiscard, State.setPhase_busy s 0 kd ck _ _ h]
      rfl
  case discard =>
    refine ⟨fun stamp hz todo answers empty => ?complete, fun holds => ?waits⟩
    case complete =>
      subst hz
      rw [exec_discardComplete_emptied s kd ck q rm stamp h, if_pos ⟨rm.done_iff.2 ⟨todo, answers⟩, empty⟩]
      exact ⟨_, rfl, deleted h rm.sum stamp⟩
    case waits =>
      cases z with
      | none => exact exec_discardComplete_occupied s kd ck q rm h
      | some stamp =>
        rw [exec_discardComplete_emptied s kd ck q rm stamp h, if_neg]
        rintro ⟨done, empty⟩
        obtain ⟨todo, answers⟩ := rm.done_iff.1 done
        simp [todo, answers, live, empty] at holds

end Sys2Proof.Machine

namespace Sys2Proof.Machine

/-! ## The window test (R87) -/

/-- A channel with no window lets every position in. -/
theorem ChanConfig.inWindow_of_none (g : ChanConfig) (rotary : Bool) (p : Int) (h : g.window = none) :
    g.inWindow rotary p = true := by
  simp [ChanConfig.inWindow, h]

/-- Bounds in order let in what lies between them, on either kind of axis. -/
theorem ChanConfig.inWindow_of_le (g : ChanConfig) (rotary : Bool) (p lo hi : Int) (h : g.window = some (lo, hi)) (hb : lo ≤ hi) :
    g.inWindow rotary p = true ↔ lo ≤ p ∧ p ≤ hi := by
  simp [ChanConfig.inWindow, h, hb]

/-- Crossed bounds let in what lies outside them, and on a ROTARY axis alone. -/
theorem ChanConfig.inWindow_of_lt (g : ChanConfig) (rotary : Bool) (p lo hi : Int) (h : g.window = some (lo, hi)) (hb : hi < lo) :
    g.inWindow rotary p = true ↔ rotary = true ∧ (lo ≤ p ∨ p ≤ hi) := by
  simp [ChanConfig.inWindow, h, Int.not_le.2 hb]

/-! ## Which changes are capture edges (R88) -/

section
variable (s : State) (c : ChanId) (g : ChanConfig) (level : Bool)

/-- The input leaves the channel's reference, in a direction that its edge field takes, while its axis counts (R88). -/
abbrev State.IsEdge : Prop :=
  (level != (s.chan c).ref) = true ∧ g.edge.takes level = true ∧ (s.axis g.axis).counting = true

/-- A configured channel takes a change that is an edge. -/
theorem State.captureOf_of_isEdge (hg : (s.chan c).config = some g) (h : s.IsEdge c g level) : s.captureOf c level = some g := by
  simp only [State.captureOf, hg, if_pos h]

/-- A configured channel takes no change as an edge but those that are. -/
theorem State.captureOf_eq_none_iff (hg : (s.chan c).config = some g) : s.captureOf c level = none ↔ ¬s.IsEdge c g level := by
  by_cases h : s.IsEdge c g level
  · simp [s.captureOf_of_isEdge c g level hg h, h]
  · refine iff_of_true ?_ h
    simp only [State.captureOf, hg]
    exact if_neg h

/-- A change away from the reference in a direction the channel takes is an edge while the axis counts. -/
theorem State.isEdge_of_leaves (hl : level = !(s.chan c).ref) (he : g.edge.takes level = true)
    (ha : (s.axis g.axis).counting = true) : s.IsEdge c g level :=
  ⟨by simp [hl], he, ha⟩

end

/-! ## CAPTURE_EDGE (R89 to R93) -/

/-- A change of a channel just set. -/
theorem State.updChan_set (s : State) (c : ChanId) (x : Channel) (f : Channel → Channel) :
    ({ s with channels := s.channels.set c x } : State).updChan c f = { s with channels := s.channels.set c (f x) } := by
  have chan : ({ s with channels := s.channels.set c x } : State).chan c = x := by simp [State.chan]
  rw [State.updChan, chan]
  simp

/-- The notices that a latched edge hands out: one while the report flag is on (R93). -/
def ChanConfig.captureNotices (g : ChanConfig) (c : ChanId) (k : Capture) (activated : Nat) (held unclaimed : Bool) : List Notice :=
  if g.report then [.capture c k.pos activated held unclaimed k.serial k.stamp] else []

/-- A report changes the notices alone. -/
theorem State.reportCapture_eq (s : State) (c : ChanId) (g : ChanConfig) (k : Capture) (n : Nat) (held unclaimed : Bool) :
    s.reportCapture c g k n held unclaimed = { s with nqReq := s.nqReq ++ g.captureNotices c k n held unclaimed } := by
  cases hr : g.report <;> simp [State.reportCapture, ChanConfig.captureNotices, hr, State.handNotice]

section
variable (s : State) (c : ChanId) (g : ChanConfig) (k : Capture) (y : Channel)

/-- After a latch on a HELD axis, only the notice follows (R92). -/
theorem State.afterLatch_held (h : (s.axis g.axis).isHeld = true) :
    s.afterLatch c g k = { s with nqReq := s.nqReq ++ g.captureNotices c k 0 true false } := by
  rw [State.afterLatch, if_pos h, State.reportCapture_eq]

/-- After a latch on an axis that is not HELD, the oldest closed batch goes to the list of the axis (R92). -/
theorem State.afterLatch_batch (h : (s.axis g.axis).isHeld = false) (b : Batch) (rest : List Batch) (hb : y.closed = b :: rest) :
    ({ s with channels := s.channels.set c y } : State).afterLatch c g k = { s with
      channels := s.channels.set c { y with closed := rest }
      lists := s.lists.set g.axis { s.clist g.axis with
        activations := (s.clist g.axis).activations ++ [⟨k.pos, k.stamp, b.entries⟩] }
      nqReq := s.nqReq ++ g.captureNotices c k b.entries.length false false } := by
  have chan : ({ s with channels := s.channels.set c y } : State).chan c = y := by simp [State.chan]
  have held : ¬(({ s with channels := s.channels.set c y } : State).axis g.axis).isHeld = true := by simpa [State.axis] using h
  simp only [State.afterLatch, if_neg held, chan, hb, State.reportCapture_eq, State.updChan_set]
  rfl

/-- With no closed batch, the edge is counted as UNCLAIMED (R92). -/
theorem State.afterLatch_unclaimed (h : (s.axis g.axis).isHeld = false) (hb : y.closed = []) :
    ({ s with channels := s.channels.set c y } : State).afterLatch c g k = { s with
      channels := s.channels.set c { y with unclaimed := min (2 ^ 32 - 1) (y.unclaimed + 1) }
      nqReq := s.nqReq ++ g.captureNotices c k 0 false true } := by
  have chan : ({ s with channels := s.channels.set c y } : State).chan c = y := by simp [State.chan]
  have held : ¬(({ s with channels := s.channels.set c y } : State).axis g.axis).isHeld = true := by simpa [State.axis] using h
  simp only [State.afterLatch, if_neg held, chan, hb, State.reportCapture_eq, State.updChan_set]
  rfl

end

section
variable (s : State) (c : ChanId) (g : ChanConfig) (level : Bool)

/-- The channel rejects an edge now: it is in LOCKOUT or the position lies outside the window (R89). -/
abbrev State.RejectsEdge : Prop :=
  (s.chan c).inLockout = true ∨ g.inWindow (s.axis g.axis).isRotary (s.axis g.axis).position = false

/-- The state with the input pin of the channel at a level. -/
def State.withInput : State := { s with pins := { s.pins with cin := s.pins.cin.set g.input level } }

/-- What an edge latches (R90). -/
def State.captureNow : Capture := ⟨(s.axis g.axis).position, (s.axis g.axis).serial, s.ts⟩

/-- A rejected edge changes the channel alone (R89). -/
theorem State.captureEdge_of_rejects (h : s.RejectsEdge c g) : s.captureEdge c g = s.updChan c Channel.reject := by
  rw [State.captureEdge, if_pos h]

/-- An edge that is not rejected is latched before all else (R90). -/
theorem State.captureEdge_of_accepts (h : ¬s.RejectsEdge c g) : s.captureEdge c g =
    (s.updChan c fun x => x.latch g (s.captureNow g)).afterLatch c g (s.captureNow g) := by
  rw [State.captureEdge, if_neg h, State.captureNow]

/-- The level taken and a change of the channel are one change of the channel, and the pin. -/
theorem State.takeLevel_updChan (f : Channel → Channel) : (s.takeLevel c g.input level).updChan c f =
    { s.withInput g level with channels := s.channels.set c (f { s.chan c with ref := level }) } :=
  (s.withInput g level).updChan_set c _ f

/-- Whether an edge is rejected does not depend on the level. -/
theorem State.takeLevel_rejectsEdge : (s.takeLevel c g.input level).RejectsEdge c g ↔ s.RejectsEdge c g := by
  have chan : (s.takeLevel c g.input level).chan c = { s.chan c with ref := level } := by simp [State.takeLevel, State.updChan, State.chan]
  have lockout : ((s.takeLevel c g.input level).chan c).inLockout = (s.chan c).inLockout := by rw [chan]; rfl
  have axis : (s.takeLevel c g.input level).axis g.axis = s.axis g.axis := rfl
  rw [State.RejectsEdge, lockout, axis]

variable (hg : (s.chan c).config = some g) (he : s.IsEdge c g level)

include hg he

/-- A channel takes an edge at the level that its input went to. -/
theorem exec_captureEdge : exec (.captureEdge c level) s = .next ((s.takeLevel c g.input level).captureEdge c g) := by
  have meaning : exec (.captureEdge c level) s = execCaptureEdge c level s := rfl
  rw [meaning, execCaptureEdge, s.captureOf_of_isEdge c g level hg he]

/-- A rejected edge is counted, and its level is the new reference (R88, R89). -/
theorem exec_captureEdge_rejected (hr : s.RejectsEdge c g) : exec (.captureEdge c level) s = .next { s with
    channels := s.channels.set c { s.chan c with ref := level, rejected := min (2 ^ 32 - 1) ((s.chan c).rejected + 1) }
    pins := { s.pins with cin := s.pins.cin.set g.input level } } := by
  have rejects := (s.takeLevel_rejectsEdge c g level).2 hr
  rw [exec_captureEdge s c g level hg he, State.captureEdge_of_rejects _ c g rejects, State.takeLevel_updChan]
  rfl

/-- An edge that is not rejected is latched (R90). -/
theorem exec_captureEdge_latched (hr : ¬s.RejectsEdge c g) : exec (.captureEdge c level) s =
    .next (({ s.withInput g level with
      channels := s.channels.set c ({ s.chan c with ref := level }.latch g (s.captureNow g)) } : State).afterLatch c g
        (s.captureNow g)) := by
  have accepts := mt (s.takeLevel_rejectsEdge c g level).1 hr
  have now : (s.takeLevel c g.input level).captureNow g = s.captureNow g := rfl
  rw [exec_captureEdge s c g level hg he, State.captureEdge_of_accepts _ c g accepts, State.takeLevel_updChan, now]

end

/-- Settles O41: the edge is rejected or latched, and what follows the latch by the state of the axis and the closed batches. -/
theorem captureEdgeLatchesAndHandsOver : Obligations.CaptureEdgeLatchesAndHandsOver := by
  intro s c g x ax level pins latched notice reject hg he ha
  have edge : s.IsEdge c g level := s.isEdge_of_leaves c g level rfl he ha
  have ran (hr : ¬reject) := exec_captureEdge_latched s c g level hg edge hr
  refine ⟨exec_captureEdge_rejected s c g level hg edge, fun hr held => ?held, fun hr free b rest hb => ?batch,
    fun hr free hb => ?unclaimed⟩
  case held => exact (ran hr).trans (congrArg _ (State.afterLatch_held _ c g _ held))
  case batch => exact (ran hr).trans (congrArg _ ((s.withInput g level).afterLatch_batch c g _ _ free b rest hb))
  case unclaimed => exact (ran hr).trans (congrArg _ ((s.withInput g level).afterLatch_unclaimed c g _ _ free hb))

/-- Settles O42: the test by the order of the bounds; crossed bounds on a LINEAR axis reject every edge, by the law of O41. -/
theorem windowTestOfALatchedPosition : Obligations.WindowTestOfALatchedPosition := by
  intro g rotary p lo hi
  refine ⟨g.inWindow_of_none rotary p, fun h => ⟨g.inWindow_of_le rotary p lo hi h, fun hb => ?rotary, fun hb => ?linear⟩,
    fun s c level hg h hb linear counting hl he => ?shut⟩
  case rotary => simpa using g.inWindow_of_lt true p lo hi h hb
  case linear => simpa using g.inWindow_of_lt false p lo hi h hb
  case shut =>
    have outside : g.inWindow (s.axis g.axis).isRotary (s.axis g.axis).position = false := by
      simpa [linear] using g.inWindow_of_lt false (s.axis g.axis).position lo hi h hb
    exact exec_captureEdge_rejected s c g level hg (s.isEdge_of_leaves c g level hl he counting) (.inr outside)

/-! ## The lockout and the reference level (R12, R88, R91) -/

section
variable (s : State) (c : ChanId) (rest : List ChanMsg)

/-- A LOCKOUT_END takes the count event that waits first at the channel (R91). -/
theorem exec_lockoutEnd (k : Nat) (h : (s.chan c).inbox = .count k :: rest) :
    exec (.lockoutEnd c) s = .next (s.updChan c fun x => { x with inbox := rest }.countEvent k) := by
  have meaning : exec (.lockoutEnd c) s = execLockoutEnd c s := rfl
  simp only [meaning, execLockoutEnd, h]

/-- A CHANNEL_AXIS_CONFIG takes the configuration that waits first at the channel (R12). -/
theorem exec_channelAxisConfig (h : (s.chan c).inbox = .axisConfig :: rest) :
    exec (.channelAxisConfig c) s = .next (s.updChan c fun x => { x with inbox := rest }.axisConfigured) := by
  have meaning : exec (.channelAxisConfig c) s = execChannelAxisConfig c s := rfl
  simp only [meaning, execChannelAxisConfig, h]

end

/-- A new axis configuration ends a LOCKOUT and leaves an ACCEPTING channel as it is (R12). -/
theorem Channel.axisConfigured_eq (x : Channel) : x.axisConfigured = match x.state with
    | .lockout _ => { x with state := .accepting }
    | _ => x := by
  cases hs : x.state <;> simp [Channel.axisConfigured, Channel.inLockout, hs]

/-- The channel after its input went to a level: a channel on that input takes the level, but for a change that is an edge (R88). -/
def State.referred (s : State) (i : InputId) (level : Bool) (c : ChanId) (x : Channel) : Channel :=
  match x.config with
  | some g => if g.input = i ∧ s.captureOf c level = none then { x with ref := level } else x
  | none => x

/-- INPUT_REFERENCE_UPDATE changes the channels one by one, and the pin (R88). -/
theorem exec_inputReferenceUpdate (s : State) (i : InputId) (level : Bool) : exec (.inputReferenceUpdate i level) s =
    .next { s.updChans (s.referred i level) with pins := { s.pins with cin := s.pins.cin.set i level } } := rfl

section
variable (s : State) (i : InputId) (level : Bool) (c : ChanId)

/-- The reference level is all that an INPUT_REFERENCE_UPDATE changes of a channel. -/
theorem State.referred_frame (x : Channel) : s.referred i level c x = { x with ref := (s.referred i level c x).ref } := by
  unfold State.referred
  split
  · split <;> rfl
  · rfl

/-- A channel that is OFF keeps its reference. -/
theorem State.referred_off (x : Channel) (h : x.config = none) : s.referred i level c x = x := by
  simp [State.referred, h]

/-- A channel on another input keeps its reference. -/
theorem State.referred_elsewhere (x : Channel) (g : ChanConfig) (h : x.config = some g) (hi : g.input ≠ i) :
    s.referred i level c x = x := by
  simp [State.referred, h, hi]

/-- A channel on the input keeps its reference before an edge, and takes any other level. -/
theorem State.referred_ref (g : ChanConfig) (h : (s.chan c).config = some g) (hi : g.input = i) :
    (s.referred i level c (s.chan c)).ref = if s.IsEdge c g level then (s.chan c).ref else level := by
  simp only [State.referred, h, hi, s.captureOf_eq_none_iff c g level h, true_and, ite_not]
  split <;> rfl

end

/-- Settles O43: the two messages of the axis that a channel takes, and the reference level channel by channel. -/
theorem channelFollowsItsAxisAndInput : Obligations.ChannelFollowsItsAxisAndInput := by
  intro s c k rest i level x
  refine ⟨fun h => ?lockout, fun h => ?axis,
    _, exec_inputReferenceUpdate s i level, rfl, rfl, fun d => ?input⟩
  case lockout => exact exec_lockoutEnd s c rest k h
  case axis =>
    exact (exec_channelAxisConfig s c rest h).trans
      (congrArg (fun y => Host.Outcome.next { s with channels := s.channels.set c y }) x.axisConfigured_eq)
  case input =>
    have chan (u : Pins) : ({ s.updChans (s.referred i level) with pins := u } : State).chan d = s.referred i level d (s.chan d) :=
      s.updChans_chan d (s.referred i level)
    rw [chan]
    exact ⟨s.referred_frame i level d _, fun g hg hi => s.referred_ref i level d g hg hi,
      s.referred_off i level d _, fun g hg hi => s.referred_elsewhere i level d _ g hg hi⟩

end Sys2Proof.Machine

namespace Sys2Proof.Machine

/-! ## What a line makes of an action (R108 to R110) -/

section
variable (l : Line) (f : FireAction)

/-- A FORCED line drops every action, and a DISABLED one takes none (R108). -/
theorem Line.act_of_dropped (h : l.state = .forced ∨ l.state = .undriven) : l.act f = l := by
  rcases h with h | h <;> simp [Line.act, h]

/-- What a line that drives a steady level makes of each action (R108). -/
theorem Line.act_of_steady (h : l.state = .inactive ∨ l.state = .active) : l.act f = match f.action with
    | .set => { l with state := .active }
    | .clear => { l with state := .inactive }
    | .toggle => { l with state := if l.state = .active then .inactive else .active }
    | .pulse d u => l.startPulse (pulseEnd d u f) := by
  have same {st : LineState} (h : l.state = st) : { l with state := st } = l := by rw [← h]
  rcases h with h | h
  · cases ha : f.action <;> simp [Line.act, h, ha, same h]
  · cases ha : f.action <;> simp [Line.act, h, ha, same h]

/-- What a PULSING line makes of each action; of a PULSE, by its retrigger setting (R108, R109). -/
theorem Line.act_of_pulsing (held : PulseEnds) (h : l.state = .pulsing held) : l.act f = match f.action with
    | .set => { l with state := .active, tick := false }
    | .clear => { l with state := .inactive, tick := false }
    | .toggle => { l with state := .inactive, tick := false }
    | .pulse d u =>
      match l.retrigger with
      | .restart => l.startPulse (pulseEnd d u f)
      | .extend => l.extendPulse held (pulseEnd d u f)
      | .ignore => { l with suppressed := satAdd max32 l.suppressed 1 } := by
  cases ha : f.action with
  | pulse d u => cases hr : l.retrigger <;> simp [Line.act, h, ha, hr]
  | _ => simp [Line.act, h, ha]

end

/-- An end that is extended is the later of the two, where no end counts as the end 0 (R109). -/
theorem laterEnd_some (old : Option Nat) (new : Nat) : laterEnd old (some new) = some (max (old.getD 0) new) := by
  cases old <;> simp [laterEnd]

/-- Without a new end, the old one stays. -/
theorem laterEnd_none (old : Option Nat) : laterEnd old none = old := by cases old <;> rfl

/-- A PULSE in counts extends the end serial alone (R109). -/
theorem Line.extendPulse_counts (l : Line) (held : PulseEnds) (d : Nat) (f : FireAction) :
    l.extendPulse held (pulseEnd d .counts f) =
      { l with state := .pulsing ⟨some (max (held.serial.getD 0) (f.serial + d)), held.tick⟩ } := by
  simp [Line.extendPulse, pulseEnd, laterEnd_some, laterEnd_none]

/-- A PULSE in ticks extends the end timestamp alone; one that is set anew waits for a tick yet to come (R5, R109). -/
theorem Line.extendPulse_ticks (l : Line) (held : PulseEnds) (d : Nat) (f : FireAction) :
    let z := max (held.tick.getD 0) (deadlineAt f.stamp d)
    l.extendPulse held (pulseEnd d .ticks f) =
      { l with state := .pulsing ⟨held.serial, some z⟩, tick := l.tick && decide (some z = held.tick) } := by
  simp [Line.extendPulse, pulseEnd, laterEnd_some, laterEnd_none]

/-! ## LINE_FIRE_ACTION (R107) -/

section
variable (s : State) (n : LineId) (f : FireAction) (rest : List FireAction) (hf : (s.line n).fromList = f :: rest)

include hf

/-- The line takes the oldest fire action sent to it (R107). -/
theorem exec_lineFireAction :
    exec (.lineFireAction n) s = .next (s.updLine n fun l => { l with fromList := rest }.takeAction f) := by
  simp only [exec_lineFireAction_eq, execLineFireAction, hf]

/-- A message that waits ahead of the count event of the fire is taken first, and the action then finds the same line (log 45). -/
theorem exec_lineFireAction_later (m : LineMsg) (ms : List LineMsg) (hq : (s.line n).fromAxis = m :: ms)
    (hm : LineMsg.count f.serial ∈ ms) :
    exec (.lineFireAction n) s = exec (.lineFireAction n) (s.updLine n fun l => l.takeAxisMsg m) := by
  have line : (s.updLine n fun l => l.takeAxisMsg m).line n = (s.line n).takeAxisMsg m := by simp
  have waits : ((s.line n).takeAxisMsg m).fromList = f :: rest := by rw [Line.takeAxisMsg_frame]; exact hf
  have taken :
      { s.line n with fromList := rest }.takeAction f = { (s.line n).takeAxisMsg m with fromList := rest }.takeAction f := by
    rw [← Line.takeAxisMsg_fromList]
    exact Line.takeAction_later _ f m ms hq hm
  rw [exec_lineFireAction s n f rest hf, exec_lineFireAction _ n f rest (line ▸ waits), State.updLine_updLine]
  exact congrArg _ (State.updLine_congr s n _ _ taken)

/-- Taking the oldest action and then all the others is taking all (R107). -/
theorem exec_lineFireAction_actAll (t : State) (ht : exec (.lineFireAction n) s = .next t) :
    (s.line n).actAll = (t.line n).actAll := by
  rw [exec_lineFireAction s n f rest hf] at ht
  cases ht
  rw [State.updLine_line, if_pos rfl, Line.actAll_cons _ f rest hf]

end

/-! ## The levels of a line (R106) -/

/-- The pin shows the driven level through the polarity of the line. -/
theorem Line.pin_of_drive (l : Line) (d : Drive) (h : l.drive = some d) : l.pin = some (d.polarity.through l.driven) := by
  simp [Line.pin, h]

/-- Settles O36: a message that waits ahead is taken first; otherwise the action acts at once, by the state of the line. -/
theorem lineTakesFireActions : Obligations.LineTakesFireActions := by
  intro s n act serial stamp rest l becomes newEnd hf
  let f : FireAction := ⟨act, serial, stamp⟩
  refine ⟨fun m ms hq hm => exec_lineFireAction_later s n f rest hf m ms hq hm, fun first => ?now,
    exec_lineFireAction_actAll s n f rest hf, fun x => ?levels⟩
  case now =>
    have acts : exec (.lineFireAction n) s = .next (s.updLine n fun l => { l with fromList := rest }.act f) :=
      exec_lineFireAction_at_once s n f rest hf first
    have acts_as {x : Line} (h : l.act f = x) : exec (.lineFireAction n) s = .next { s with lines := s.lines.set n x } := h ▸ acts
    have becomes_of {st : LineState} {tick : Bool} (h : l.act f = { l with state := st, tick := tick }) : becomes st tick :=
      acts_as h
    have pulse_ends (d : Nat) (u : PulseUnit) : pulseEnd d u f = newEnd d u := by cases u <;> rfl
    refine ⟨fun h => becomes_of (l.act_of_dropped f h), fun h => ?steady, fun held h => ?pulsing⟩
    case steady =>
      have result := l.act_of_steady f h
      refine ⟨?set, ?clear, ?toggle, fun d u => ?pulse⟩ <;> rintro rfl
      case pulse => exact becomes_of (result.trans (congrArg l.startPulse (pulse_ends d u)))
      all_goals exact becomes_of result
    case pulsing =>
      have result := l.act_of_pulsing f held h
      refine ⟨?breaks_on, ?breaks_off, fun d u => ?retrigger⟩
      case breaks_on =>
        rintro rfl
        exact becomes_of result
      case breaks_off => rintro (rfl | rfl) <;> exact becomes_of result
      case retrigger =>
        rintro rfl
        refine ⟨fun hr => ?restart, fun hr hu => ?extend_counts, fun hr hu => ?extend_ticks, fun hr => ?ignore⟩ <;>
          simp only [f, hr] at result
        case restart => exact becomes_of (result.trans (congrArg l.startPulse (pulse_ends d u)))
        case extend_counts =>
          subst hu
          exact becomes_of (result.trans (l.extendPulse_counts held d f))
        case extend_ticks =>
          subst hu
          exact becomes_of (result.trans (l.extendPulse_ticks held d f))
        case ignore => exact acts_as result
  case levels =>
    refine ⟨x.actAll_idle, fun h => ?_, fun h => ?_, fun h => ?_, fun d h => ⟨fun hs => ?_, fun hp => ?_, fun hp => ?_⟩⟩
    · rcases h with h | h <;> simp [Line.driven, h]
    · rcases h with h | ⟨held, h⟩ <;> simp [Line.driven, h]
    · simp [Line.pin, Line.drive, h]
    · simp [Line.driven, hs, x.drive_of_config d h]
    · rw [x.pin_of_drive d (x.drive_of_config d h), hp, Polarity.through]
    · rw [x.pin_of_drive d (x.drive_of_config d h), hp, Polarity.through]

/-! ## LINE_HOST_WRITE (R118) -/

/-- A line that is not in HOST mode answers LINE_MODE, a FORCED one LINE_TRIPPED, and any other carries out the action. -/
theorem exec_lineHostWrite (s : State) (p : PairId) (kd : Byte) (ck : W32) (n : LineId) (act : Action)
    (hp : s.proc p = .busy kd ck (.writing n act)) : exec (.lineHostWrite p) s = .next
      (if (s.line n).isHost = false then s.withAck p kd ck .lineMode 0 s.ts
      else if (s.line n).state = .forced then s.withAck p kd ck .lineTripped 0 s.ts
      else { s.withAck p kd ck .ok 0 s.ts with lines := s.lines.set n ((s.line n).act ⟨act, 0, s.ts⟩) }) := by
  have meaning : exec (.lineHostWrite p) s = execLineHostWrite p s := rfl
  have refused (st : Status) : s.handAck p st 0 s.ts = s.withAck p kd ck st 0 s.ts := State.handAck_busy s p kd ck _ _ _ _ hp
  have carried (g : Line → Line) : (s.updLine n g).handAck p .ok 0 s.ts =
      { s.withAck p kd ck .ok 0 s.ts with lines := s.lines.set n (g (s.line n)) } := State.handAck_busy _ p kd ck _ _ _ _ hp
  simp only [meaning, execLineHostWrite, hp, Proc.phase, refused, carried]

/-- Settles O40: the two refusals, and the action by the law of a line that drives a steady level. -/
theorem hostWriteReachesTheLine : Obligations.HostWriteReachesTheLine := by
  intro s p kd ck n act hp
  have written := exec_lineHostWrite s p kd ck n act hp
  refine ⟨fun host => ?mode, fun host forced => ?tripped, fun host free => ?carried⟩
  case mode => rw [written, if_pos host]
  case tripped => rw [written, if_neg (by simp [host]), if_pos forced]
  case carried =>
    rw [if_neg (by simp [host]), if_neg free] at written
    have carried_as {x : Line} (h : (s.line n).act ⟨act, 0, s.ts⟩ = x) : exec (.lineHostWrite p) s =
        .next { s.withAck p kd ck .ok 0 s.ts with lines := s.lines.set n x } := h ▸ written
    refine ⟨written, ?_, ?_, fun d => ?_⟩ <;> rintro rfl steady <;> exact carried_as (Line.act_of_steady _ _ steady)

/-! ## What a line takes from its axis and from HOLD_IN (R113 to R116) -/

/-- The command by which a line takes a message of its Axis Unit. -/
def LineMsg.command (n : LineId) : LineMsg → Instr
  | .count _ => .pulseEndCount n
  | .stop => .lineAxisStop n
  | .held => .lineAxisHeld n
  | .resumed => .lineAxisResumed n

/-- A stop, a hold or a resumption that waits first at the line is taken at its command (R113, R115). -/
theorem exec_lineMsg (s : State) (n : LineId) (m : LineMsg) (rest : List LineMsg) (h : (s.line n).fromAxis = m :: rest)
    (hm : ∀ k, m ≠ .count k) : exec (m.command n) s = .next (s.updLine n fun l => l.takeAxisMsg m) := by
  cases m with
  | count k => exact absurd rfl (hm k)
  | stop => simp only [LineMsg.command, exec, execLineAxisStop, h]
  | held => simp only [LineMsg.command, exec, execLineAxisHeld, h]
  | resumed => simp only [LineMsg.command, exec, execLineAxisResumed, h]

/-- The end of a forcing changes the state of a line alone (R114). -/
theorem Line.unforce_eq (l : Line) : l.unforce = { l with
    state := if l.isHost = true ∧ l.state = .forced ∧ l.holdIn = false ∧ l.tripCount = 0 then .inactive else l.state } := by
  unfold Line.unforce
  split <;> rfl

/-- With HOLD_IN low, a HOST line is FORCED no longer once no trip of it stands (R116). -/
theorem Line.unforce_of_low (l : Line) (h : l.holdIn = false) :
    l.unforce = if l.isHost = true ∧ l.state = .forced ∧ l.tripCount = 0 then { l with state := .inactive } else l := by
  simp [Line.unforce, h]

/-- Settles O38: each message of the axis by the law of its taking, and HOLD_IN by the mode of the line. -/
theorem lineFollowsItsAxisAndHoldIn : Obligations.LineFollowsItsAxisAndHoldIn := by
  intro s n rest l x
  have takes {m : LineMsg} (h : x.fromAxis = m :: rest) (hm : ∀ k, m ≠ .count k) {y : Line} (hy : x.takeAxisMsg m = y) :
      exec (m.command n) s = .next { s with lines := s.lines.set n y } := hy ▸ exec_lineMsg s n m rest h hm
  have queue {m : LineMsg} (h : x.fromAxis = m :: rest) : { x with fromAxis := x.fromAxis.tail } = l := by rw [h]; rfl
  refine ⟨fun m h hm => ?message, fun h => takes h nofun ?stop, fun h => takes h nofun ?held, fun h => takes h nofun ?resumed,
    rfl, ?deassert⟩
  case message =>
    cases m with
    | count k => exact absurd rfl (hm k)
    | _ => exact takes h hm rfl
  case stop => rw [Line.takeAxisMsg, queue h]; rfl
  case held => rw [Line.takeAxisMsg, queue h]; rfl
  case resumed => rw [Line.takeAxisMsg, queue h]
  case deassert =>
    exact congrArg (fun y => Host.Outcome.next { s with pins := { s.pins with holdIn := false }, lines := s.lines.set n y })
      (Line.unforce_of_low { x with holdIn := false } rfl)

/-! ## LINE_TRIP_NOTICE and LINE_RELEASE_NOTICE (R117, R134, R137) -/

/-- The command by which a line takes a notice of the Monitor Table. -/
def TripMsg.command (n : LineId) : TripMsg → Instr
  | .trip => .lineTripNotice n
  | .release => .lineReleaseNotice n

section
variable (s : State) (n : LineId)

/-- A DISABLED line counts a trip and does no more. -/
theorem State.takeTrip_of_disabled (h : (s.line n).config = .disabled) :
    s.takeTrip n = s.updLine n fun l => { l with tripCount := l.tripCount + 1 } := by
  simp only [State.takeTrip, h]
  exact State.updLine_congr s n _ _ (if_neg (by simp [Line.isHost, h]))

/-- A HOST line counts a trip and becomes FORCED. -/
theorem State.takeTrip_of_host (d : Drive) (h : (s.line n).config = .host d) :
    s.takeTrip n = s.updLine n fun l => { l with tripCount := l.tripCount + 1 }.force := by
  simp only [State.takeTrip, h]
  exact State.updLine_congr s n _ _ (if_pos (by simp [Line.isHost, h]))

/-- A COMPARE line counts a trip and passes a hold request to its axis. -/
theorem State.takeTrip_of_compare (a : AxisId) (d : Drive) (h : (s.line n).config = .compare a d) :
    s.takeTrip n = (s.updLine n fun l => { l with tripCount := l.tripCount + 1 }).sendHold a .trip := by
  simp only [State.takeTrip, h]
  exact congrArg (State.sendHold · a .trip) (State.updLine_congr s n _ _ (if_neg (by simp [Line.isHost, h])))

/-- A notice that waits first at the line is taken at its command (R117). -/
theorem exec_lineNotice (m : TripMsg) (rest : List TripMsg) (h : (s.line n).fromMonitor = m :: rest) :
    exec (m.command n) s = .next (s.takeNotice n m rest) := by
  cases m with
  | trip => simp only [TripMsg.command, exec, execLineTripNotice, h]
  | release => simp only [TripMsg.command, exec, execLineReleaseNotice, h]

end

/-- Settles O39: the notice leaves the queue of the line, and a trip then acts by the mode of the line. -/
theorem lineTakesTripNotices : Obligations.LineTakesTripNotices := by
  intro s n rest l
  let u : State := s.updLine n fun x => { x with fromMonitor := rest }
  have line : u.line n = l := by simp [u, l]
  have twice (g : Line → Line) : u.updLine n g = { s with lines := s.lines.set n (g l) } := State.updLine_updLine s n _ g
  refine ⟨rfl, fun h => ?trip, fun h => ?release⟩
  case trip =>
    have takes : exec (.lineTripNotice n) s = .next (u.takeTrip n) := exec_lineNotice s n .trip rest h
    refine ⟨fun hc => ?_, fun d hc => ?_, fun a d hc => ?_⟩
    · rw [takes, u.takeTrip_of_disabled n (line ▸ hc), twice]
    · rw [takes, u.takeTrip_of_host n d (line ▸ hc), twice, Line.force]
    · rw [takes, u.takeTrip_of_compare n a d (line ▸ hc), twice]
      rfl
  case release =>
    have takes : exec (.lineReleaseNotice n) s = .next (u.takeRelease n) := exec_lineNotice s n .release rest h
    rw [takes, State.takeRelease, twice, Line.unforce_eq]
    rfl

end Sys2Proof.Machine

namespace Sys2Proof.Machine

/-! ## What an operation leaves of the Monitor Table -/

section
variable (s : State)

/-- States with the same Monitor Table have the same slots. -/
theorem State.slot_of_slots {s t : State} (h : t.slots = s.slots) (m : SlotId) : t.slot m = s.slot m := by
  simp only [State.slot, h]

@[simp] theorem State.releaseAll_slots (es : List Entry) : (s.releaseAll es).slots = s.slots :=
  List.foldlRecOn (motive := fun u : State => u.slots = s.slots) es _ rfl fun u hu e _ => (u.release_slots e).trans hu
@[simp] theorem State.retireAll_slots (es : List Entry) : (s.retireAll es).slots = s.slots :=
  List.foldlRecOn (motive := fun u : State => u.slots = s.slots) es _ rfl fun u hu e _ => (u.retire_slots e).trans hu

/-! Axis Units -/

@[simp] theorem State.enterHeld_slots (a : AxisId) (c : Cause) (x : Target) : (s.enterHeld a c x).slots = s.slots := by
  simp [State.enterHeld, State.tellHeld]
@[simp] theorem State.hold_slots (a : AxisId) (c : Cause) : (s.hold a c).slots = s.slots := by
  unfold State.hold
  repeat' split
  all_goals simp
@[simp] theorem State.takeSample_slots (a : AxisId) (chA chB : Bool) : (s.takeSample a chA chB).slots = s.slots := rfl
@[simp] theorem State.count_slots (a : AxisId) (d : Dir) : (s.count a d).slots = s.slots := by
  unfold State.count
  repeat' split
  all_goals simp [State.tellCount]
@[simp] theorem State.prescalerExpires_slots (a : AxisId) (d : Dir) : (s.prescalerExpires a d).slots = s.slots := by
  simp [State.prescalerExpires]
@[simp] theorem State.prescalerAdvances_slots (a : AxisId) : (s.prescalerAdvances a).slots = s.slots := rfl
@[simp] theorem State.prescaleTick_slots (a : AxisId) : (s.prescaleTick a).slots = s.slots := by
  unfold State.prescaleTick
  repeat' split
  all_goals simp
@[simp] theorem State.indexPreset_slots (a : AxisId) (g : AxisConfig) : (s.indexPreset a g).slots = s.slots := by
  unfold State.indexPreset
  dsimp only
  repeat' split
  all_goals rfl
@[simp] theorem State.configureAxis_slots (a : AxisId) (g : AxisConfig) : (s.configureAxis a g).slots = s.slots := by
  unfold State.configureAxis
  dsimp only
  split <;> split <;> simp
@[simp] theorem State.resume_slots (a : AxisId) (x : Target) : (s.resume a x).slots = s.slots := by simp [State.resume]

/-! Compare lists and the entry pool -/

@[simp] theorem State.fire_slots (a : AxisId) (k : AxisKind) (e : Entry) (order : Option Nat) (f : FirePoint) (reports : Bool) :
    (s.fire a k e order f reports).slots = s.slots := by
  rw [(FiresOnly.fire s a k e order f reports).1]
@[simp] theorem State.reportRetire_slots (e : Entry) (x : Reason) (pos : Int) (serial stamp : Nat) :
    (s.reportRetire e x pos serial stamp).slots = s.slots := by
  unfold State.reportRetire; split <;> rfl
@[simp] theorem State.takeListMsg_slots (a : AxisId) (m : ListMsg) : (s.takeListMsg a m).slots = s.slots := by
  rw [State.takeListMsg_frame]
@[simp] theorem State.takeCounts_slots (a : AxisId) : (s.takeCounts a).slots = s.slots := by
  rw [State.takeCounts_frame]
@[simp] theorem State.listBefore_slots (n : LineId) : (s.listBefore n).slots = s.slots := by
  rw [State.listBefore_frame]
@[simp] theorem State.allocate_slots (p : PairId) (e : Entry) : (s.allocate p e).slots = s.slots := rfl
@[simp] theorem State.insertArm_slots (p : PairId) (e : Entry) (pos : Int) (g : AxisConfig) :
    (s.insertArm p e pos g).slots = s.slots := by
  unfold State.insertArm
  dsimp only
  repeat' split
  all_goals simp
@[simp] theorem State.insertActivated_slots (a : AxisId) (w : Waiting) (origin : Int) (g : AxisConfig) :
    (s.insertActivated a w origin g).slots = s.slots := by
  unfold State.insertActivated
  dsimp only
  repeat' split
  all_goals simp
@[simp] theorem State.removeArmed_slots (a : AxisId) (reaches : Entry → Bool) : (s.removeArmed a reaches).slots = s.slots := by
  simp [State.removeArmed]
@[simp] theorem State.answer_slots (p : PairId) (b : Block) (n : Nat) : (s.answer p b n).slots = s.slots := by
  simp [State.answer]
@[simp] theorem State.answerExcluded_slots (p : PairId) (b : Block) : (s.answerExcluded p b).slots = s.slots := by
  simp [State.answerExcluded]

/-! Capture channels and lines -/

@[simp] theorem State.captureEdge_slots (c : ChanId) (g : ChanConfig) : (s.captureEdge c g).slots = s.slots := by
  have reported (u : State) (k : Capture) (n : Nat) (held unclaimed : Bool) :
      (u.reportCapture c g k n held unclaimed).slots = u.slots := by
    unfold State.reportCapture; split <;> rfl
  unfold State.captureEdge State.afterLatch
  dsimp only
  repeat' split
  all_goals simp [reported]
@[simp] theorem State.takeLevel_slots (c : ChanId) (input : InputId) (level : Bool) :
    (s.takeLevel c input level).slots = s.slots := rfl
@[simp] theorem State.removeWaiting_slots (p : PairId) (c : ChanId) (reaches : Entry → Bool) (f : Channel → Channel) :
    (s.removeWaiting p c reaches f).slots = s.slots := by simp [State.removeWaiting]
@[simp] theorem State.configureChan_slots (p : PairId) (c : ChanId) (g : Option ChanConfig) (discard : Bool) :
    (s.configureChan p c g discard).slots = s.slots := by
  unfold State.configureChan
  dsimp only
  repeat' split
  all_goals simp
@[simp] theorem State.endTickPulse_slots (n : LineId) : (s.endTickPulse n).slots = s.slots := by
  rw [State.endTickPulse_frame]
@[simp] theorem State.takeNotice_slots (n : LineId) (m : TripMsg) (rest : List TripMsg) :
    (s.takeNotice n m rest).slots = s.slots := by rw [State.takeNotice_frame]
@[simp] theorem State.settle_slots (q : QueryOf) : (s.settle q).slots = s.slots := by rw [State.settle_frame]

/-! The Monitor Table's notices -/

@[simp] theorem State.sendRelease_slots (m : SlotId) : (s.sendRelease m).slots = s.slots := by
  unfold State.sendRelease; split <;> rfl

/-! The Ring Engine and the record processors -/

@[simp] theorem State.timeOut_slots (p : PairId) : (s.timeOut p).slots = s.slots := by
  rw [State.timeOut_frame]
@[simp] theorem State.setFault_slots (c : ErrorCause) : (s.setFault c).slots = s.slots := by
  unfold State.setFault State.dropSnapshot
  repeat' split
  · rfl
  · exact State.handAck_slots ..
  · rfl
  · rfl
@[simp] theorem State.setCause_slots (p : PairId) (c : ErrorCause) : (s.setCause p c).slots = s.slots := by
  unfold State.setCause; split <;> rfl
@[simp] theorem State.pairError_slots (p : PairId) (c : ErrorCause) : (s.pairError p c).slots = s.slots := by
  unfold State.pairError; split <;> simp
@[simp] theorem State.endRead_slots (p : PairId) : (s.endRead p).slots = s.slots := rfl
@[simp] theorem State.grant_slots (p : PairId) : (s.grant p).slots = s.slots := rfl
@[simp] theorem State.takeRequest_slots (p : PairId) (r : CqRequest) : (s.takeRequest p r).slots = s.slots := by
  unfold State.takeRequest State.takeAck State.takeReport
  dsimp only
  repeat' split
  all_goals rfl
@[simp] theorem State.takeNotification_slots (n : Notice) : (s.takeNotification n).slots = s.slots := by
  unfold State.takeNotification
  repeat' split
  all_goals rfl
@[simp] theorem State.endWrite_slots : s.endWrite.slots = s.slots := rfl
@[simp] theorem State.recordError_slots (ring : RingId) : (s.recordError ring).slots = s.slots := by
  cases ring with
  | cq p => simp [State.recordError]
  | nq => rfl
@[simp] theorem State.answerStatus_slots (w : QueuedWrite) (stale : Bool) : (s.answerStatus w stale).slots = s.slots := by
  have published (ring : RingId) (v : Nat) : (s.publish ring v).slots = s.slots := by cases ring <;> rfl
  unfold State.answerStatus
  repeat' split
  · exact published ..
  all_goals rfl
@[simp] theorem State.setQuota_slots (p : PairId) (quota : Nat) : (s.setQuota p quota).slots = s.slots := rfl
@[simp] theorem State.queueZeros_slots (p : PairId) : (s.queueZeros p).slots = s.slots := rfl
@[simp] theorem State.abortBarrier_slots (p : PairId) : (s.abortBarrier p).slots = s.slots := by
  unfold State.abortBarrier; split <;> simp
@[simp] theorem State.becomeAbsent_slots (p : PairId) : (s.becomeAbsent p).slots = s.slots := by
  rw [State.becomeAbsent_eq]
@[simp] theorem State.startDiscard_slots (p : PairId) : (s.startDiscard p).slots = s.slots := by simp [State.startDiscard]
@[simp] theorem State.setNotices_slots (base : W64) (size : Nat) : (s.setNotices base size).slots = s.slots := rfl
@[simp] theorem State.queueSnapshot_slots (q : QueryOf) (addr : W64) : (s.queueSnapshot q addr).slots = s.slots := rfl
@[simp] theorem State.endCancel_slots (p : PairId) (x : Removing) : (s.endCancel p x).slots = s.slots := by
  unfold State.endCancel; split <;> simp

/-! The register window -/

@[simp] theorem State.writeStatusBlockBase_slots (access : Access) (v : W64) :
    (s.writeStatusBlockBase access v).slots = s.slots := by
  unfold State.writeStatusBlockBase; split <;> rfl
@[simp] theorem State.writeAdminSqBase_slots (access : Access) (v : W64) : (s.writeAdminSqBase access v).slots = s.slots := by
  unfold State.writeAdminSqBase; split <;> rfl
@[simp] theorem State.writeAdminCqBase_slots (access : Access) (v : W64) : (s.writeAdminCqBase access v).slots = s.slots := by
  unfold State.writeAdminCqBase; split <;> rfl
@[simp] theorem State.writeAdminSizes_slots (v : W32) : (s.writeAdminSizes v).slots = s.slots := by
  unfold State.writeAdminSizes; dsimp only; split <;> rfl
@[simp] theorem State.writeSqPost_slots (p : PairId) (v : W32) : (s.writeSqPost p v).slots = s.slots := by
  unfold State.writeSqPost
  dsimp only
  repeat' split
  all_goals simp
@[simp] theorem State.writeCqDone_slots (p : PairId) (v : W32) : (s.writeCqDone p v).slots = s.slots := by
  unfold State.writeCqDone
  dsimp only
  repeat' split
  all_goals simp
@[simp] theorem State.writeNqDone_slots (v : W32) : (s.writeNqDone v).slots = s.slots := by
  unfold State.writeNqDone
  dsimp only
  repeat' split
  all_goals rfl
@[simp] theorem State.writeIrqMask_slots (v : W32) : (s.writeIrqMask v).slots = s.slots := rfl

/-- A write by offset leaves the Monitor Table alone, but for one of CONTROL that starts a soft reset (R143). -/
theorem State.writeRegister_slots (offset : BitVec 12) (v : W64) (h : (Instr.registerWrite offset v).isReset = false) :
    (s.writeRegister offset v).slots = s.slots := by
  have control (ho : offset.toNat = 0x010) : (s.writeControl (v.truncate 32)).slots = s.slots := by
    have : offset = 0x010 := BitVec.eq_of_toNat_eq ho
    have bit : (v.truncate 32).getLsbD 1 = false := by simpa [Instr.isReset, this] using h
    simp only [State.writeControl, bit]
    rfl
  simp only [State.writeRegister, apply_ite State.slots, State.writeStatusBlockBase_slots, State.writeAdminSqBase_slots,
    State.writeAdminCqBase_slots, State.writeAdminSizes_slots, State.writeIrqMask_slots, State.writeSqPost_slots,
    State.writeCqDone_slots, State.writeNqDone_slots, ite_self]
  split
  · next ho => exact control ho
  · rfl

/-- A record keeps what its start and its ack keep, and what it does past step 3 keeps (R170). -/
theorem State.onRecord_keeps (P : State → Prop) (same : ∀ {u v : State}, v.slots = u.slots → P u → P v) (r : Record) (k : Kind)
    (f : PairId → State → State) (hf : ∀ p u, P u → P (f p u)) (hs : P s) : P (s.onRecord r k f) := by
  have started (p : PairId) : P (s.startRecord p r) := same (s.startRecord_slots p r) hs
  unfold State.onRecord
  repeat' split
  · exact same (State.handAck_slots ..) (started _)
  · exact hf _ _ (started _)
  · exact hs

/-- A record leaves the Monitor Table alone when what it does past step 3 does (R170). -/
theorem State.onRecord_slots (r : Record) (k : Kind) (f : PairId → State → State) (h : ∀ p u, (f p u).slots = u.slots) :
    (s.onRecord r k f).slots = s.slots :=
  s.onRecord_keeps (fun u => u.slots = s.slots) (fun e hu => e.trans hu) r k f (fun p u hu => (h p u).trans hu) rfl

/-- A record of a configured axis leaves the Monitor Table alone when what it does there does. -/
theorem State.onAxis_slots (r : Record) (k : Kind) (f : PairId → AxisId → AxisConfig → State → State)
    (h : ∀ p a g u, (f p a g u).slots = u.slots) : (s.onAxis r k f).slots = s.slots :=
  s.onRecord_slots r k _ fun p u => by
    split
    · exact h ..
    · simp

/-- A register write leaves the Monitor Table alone when what it does while READY is 1 does (R142). -/
theorem State.whenReady_slots (f : State → State) (h : (f s).slots = s.slots) : (s.whenReady f).slots = s.slots := by
  unfold State.whenReady
  split
  · rfl
  · exact h

end

end Sys2Proof.Machine

namespace Sys2Proof

/-- A command that takes a check, acts on the Monitor Table by a record of its own, or may reset the part. -/
def Instr.movesSlots : Instr → Bool
  | .tick => true
  | .checkEvent _ => true
  | .monitorConfig _ => true
  | .monitorRelease _ => true
  | .monitorGlobal _ => true
  | c => c.isReset

end Sys2Proof

namespace Sys2Proof.Machine

/-- A command leaves the Monitor Table as it is when its next state has it so. -/
theorem slots_of_next {s t u : State} (h : (.next u : Host.Outcome State Fault Refusal) = .next t) (hu : u.slots = s.slots) :
    t.slots = s.slots := by
  cases h
  exact hu

/-- No command but a TICK, a CHECK_EVENT, a monitor record and a reset changes a slot. -/
theorem exec_slots (c : Instr) (s t : State) (hc : c.movesSlots = false) (h : exec c s = .next t) : t.slots = s.slots := by
  cases c
  case tick | checkEvent | monitorConfig | monitorRelease | monitorGlobal | fullReset | softReset => cases hc
  case registerWrite offset v => exact slots_of_next h (s.whenReady_slots _ (s.writeRegister_slots offset v hc))
  case enableWrite => exact slots_of_next h (s.whenReady_slots _ rfl)
  case statusBlockBaseWrite | adminSqBaseWrite | adminCqBaseWrite | adminSizesWrite | sqPostWrite | cqDoneWrite | nqDoneWrite
      | irqMaskWrite => exact slots_of_next h (s.whenReady_slots _ (by simp))
  case axisStart | axisStop | axisHalt | axisResume | axisSetPosition | axisHome | cancelAxis =>
    exact slots_of_next h (s.onAxis_slots _ _ _ fun p a g u => by
      repeat' split
      all_goals simp)
  case nop | armDeferred | cancel | lineWrite | setNoticeRing | axisConfig | captureConfig =>
    exact slots_of_next h (s.onRecord_slots _ _ _ fun p u => by
      repeat' split
      all_goals simp)
  case arm | barrier | createPair | deletePair | lineConfig =>
    exact slots_of_next h (s.onRecord_slots _ _ _ fun p u => by
      dsimp only
      repeat' split
      all_goals simp)
  case query fb => exact slots_of_next h (s.onRecord_slots _ _ _ fun p u => by simp)
  case holdInAssertAxis => exact slots_of_next h (State.hold_slots ..)
  case holdInDeassertAxis | holdInAssertLine | holdInDeassertLine | inputReferenceUpdate => exact slots_of_next h rfl
  case pulseEndTick | barrierTimeout => exact slots_of_next h (by simp)
  case activationInsertion | removalAnswer =>
    refine slots_of_next h ?_
    dsimp only
    repeat' split
    all_goals simp
  case postNotice =>
    refine slots_of_next h ?_
    split
    · exact State.takeNotification_slots ..
    · rfl
  case resetDone | writeIssue | recordWriteDone =>
    refine slots_of_next h ?_
    repeat' split
    all_goals rfl
  all_goals -- no other command reaches a slot
    refine slots_of_next h ?_
    repeat' split
    all_goals simp

end Sys2Proof.Machine

namespace Sys2Proof.Machine

/-! ## The monitor records (R122, R123, R126, R136, R137) -/

/-- The ack of a record that has changed the Monitor Table and lines: it looks at nothing of them, and changes nothing of them. -/
theorem State.startRecord_handAck_table (s : State) (r : Record) (p : PairId) (st : Status) (d t : Nat) (slots : Vector Slot 24)
    (monitor : Monitor) (lines : Vector Line 16) :
    { s.startRecord p r with slots := slots, monitor := monitor, lines := lines }.handAck p st d t =
      { s.recordAnswered p r st d t with slots := slots, monitor := monitor, lines := lines } :=
  State.handAck_started s r p _ st d t rfl rfl

/-- MONITOR_CONFIG (R126): refused at a TRIPPED slot, and else the slot starts afresh. -/
theorem exec_monitorConfig (s : State) (r : Record) (p : PairId) (h : s.Takes r .monitorConfig p) :
    exec (.monitorConfig r) s = .next
      (if (s.slot (r.slotAt 8)).state = .tripped then s.recordAnswered p r .monitorTripped 0 s.ts
      else { s.recordAnswered p r .ok 0 s.ts with
        slots := s.slots.set (r.slotAt 8) (if r.flag 0 then enabledSlot r.slotConfig else blankSlot) }) := by
  refine congrArg Host.Outcome.next ((s.onRecord_takes r .monitorConfig p _ h).trans ?_)
  dsimp only
  rw [State.startRecord_slot, State.startRecord_ts]
  split
  · exact s.startRecord_handAck p r .monitorTripped 0 s.ts
  · exact s.startRecord_handAck_table r p .ok 0 s.ts _ s.monitor s.lines

section
variable {s : State} {r : Record} {p : PairId}

/-- MONITOR_RELEASE of a slot that is not TRIPPED is answered OK and does no more (R136, rule 1). -/
theorem exec_monitorRelease_untripped (h : s.Takes r .monitorRelease p) (ht : (s.slot (r.slotAt 8)).state ≠ .tripped) :
    exec (.monitorRelease r) s = .next (s.recordAnswered p r .ok 0 s.ts) := by
  refine congrArg Host.Outcome.next ((s.onRecord_takes r .monitorRelease p _ h).trans ?_)
  dsimp only
  rw [if_neg (by simpa using ht)]
  exact s.startRecord_handAck p r .ok 0 s.ts

/-- MONITOR_RELEASE of a TRIPPED slot that its test refuses (R136, rules 2 and 3). -/
theorem exec_monitorRelease_refused {st : Status} (h : s.Takes r .monitorRelease p) (ht : (s.slot (r.slotAt 8)).state = .tripped)
    (hr : (s.slot (r.slotAt 8)).releaseTest = some st) :
    exec (.monitorRelease r) s = .next (s.recordAnswered p r st 0 s.ts) := by
  refine congrArg Host.Outcome.next ((s.onRecord_takes r .monitorRelease p _ h).trans ?_)
  dsimp only
  rw [State.startRecord_slot, if_pos ht, hr]
  exact s.startRecord_handAck p r st 0 s.ts

/-- The lines after the release of a slot: the line of a LINE_FEEDBACK slot of severity HOLD or LATCH has its notice (R137). -/
def State.releasedLines (s : State) (x : Slot) : Vector Line 16 :=
  match x.standing with
  | some (.lineFeedback n) => s.lines.set n { s.line n with fromMonitor := (s.line n).fromMonitor ++ [.release] }
  | _ => s.lines

/-- A release notice changes the lines alone (R137). -/
theorem State.sendRelease_eq (s : State) (m : SlotId) : s.sendRelease m = { s with lines := s.releasedLines (s.slot m) } := by
  unfold State.sendRelease State.releasedLines
  cases (s.slot m).standing with
  | none => rfl
  | some k => cases k <;> rfl

/-- MONITOR_RELEASE of a TRIPPED slot that its test lets go (R136, rule 4, R137). -/
theorem exec_monitorRelease_released (h : s.Takes r .monitorRelease p) (ht : (s.slot (r.slotAt 8)).state = .tripped)
    (hr : (s.slot (r.slotAt 8)).releaseTest = none) :
    exec (.monitorRelease r) s = .next { s.recordAnswered p r .ok 0 s.ts with
      slots := s.slots.set (r.slotAt 8) { s.slot (r.slotAt 8) with state := .clear, presentRun := 0, absentRun := 0 }
      lines := s.releasedLines (s.slot (r.slotAt 8)) } := by
  refine congrArg Host.Outcome.next ((s.onRecord_takes r .monitorRelease p _ h).trans ?_)
  dsimp only
  rw [State.startRecord_slot, if_pos ht, hr, State.sendRelease_eq]
  exact s.startRecord_handAck_table r p .ok 0 s.ts _ s.monitor _

end

/-- The test of a slot of severity LATCH refuses it (R136, rule 2). -/
theorem Slot.releaseTest_of_latch (x : Slot) {g : SlotConfig} (hg : x.config = some g) (hs : g.severity = .latch) :
    x.releaseTest = some .monitorLatched := by
  simp [Slot.releaseTest, hg, hs]

/-- The test of a slot of severity WARN or HOLD is on its last sample (R136, rules 3 and 4). -/
theorem Slot.releaseTest_of_last (x : Slot) {g : SlotConfig} {y : Sample} (hg : x.config = some g) (hs : g.severity ≠ .latch)
    (hl : x.last = some y) : x.releaseTest = if y.present = true then some .conditionPresent else none := by
  simp [Slot.releaseTest, hg, hs, hl]

/-- A TRIPPED slot of severity other than LATCH stands when its severity is HOLD (R12, R137). -/
theorem State.releasedLines_of_config (s : State) {x : Slot} {g : SlotConfig} (ht : x.state = .tripped) (hg : x.config = some g)
    (hs : g.severity ≠ .latch) : s.releasedLines x = match g.severity, g.kind with
      | .hold, .lineFeedback n => s.lines.set n { s.line n with fromMonitor := (s.line n).fromMonitor ++ [.release] }
      | _, _ => s.lines := by
  obtain ⟨kind, qualify, severity⟩ := g
  cases severity with
  | warn n => simp [State.releasedLines, Slot.standing, ht, hg, Severity.holds]
  | hold => cases kind <;> simp [State.releasedLines, Slot.standing, ht, hg, Severity.holds]
  | latch => exact absurd rfl hs

section
variable (s : State) (enable : Bool) (period : Nat)

/-- MONITOR_GLOBAL opens the table: configured slots stand before their opening check, and the deadline is set (R122). -/
theorem State.setGlobal_opens (h : s.monitor.enable = false) : s.setGlobal true period =
    { s with
      slots := Vector.ofFn fun m => (s.slot m).opened
      monitor := ⟨true, period, some (min (2 ^ 64 - 1) (s.ts + 1000 * period)), false⟩ } := by
  simp only [State.setGlobal, State.updSlots, h]
  rfl

/-- MONITOR_GLOBAL at an open table sets the deadline anew (R122). -/
theorem State.setGlobal_renews (h : s.monitor.enable = true) : s.setGlobal true period =
    { s with monitor := ⟨true, period, some (min (2 ^ 64 - 1) (s.ts + 1000 * period)), false⟩ } := by
  simp only [State.setGlobal, h]
  rfl

/-- MONITOR_GLOBAL closes the table: PENDING slots go back to CLEAR, and the deadline is discarded (R123). -/
theorem State.setGlobal_closes (h : s.monitor.enable = true) : s.setGlobal false period =
    { s with slots := Vector.ofFn fun m => (s.slot m).unqualified, monitor := ⟨false, period, none, false⟩ } := by
  simp only [State.setGlobal, State.updSlots, h]

/-- MONITOR_GLOBAL at a closed table stores the period alone (R122). -/
theorem State.setGlobal_stores (h : s.monitor.enable = false) :
    s.setGlobal false period = { s with monitor := { s.monitor with period := period } } := by
  simp only [State.setGlobal, h]

/-- MONITOR_GLOBAL at the table changes the slots and the global setting alone. -/
theorem State.setGlobal_frame :
    s.setGlobal enable period =
      { s with slots := (s.setGlobal enable period).slots, monitor := (s.setGlobal enable period).monitor } := by
  cases on : s.monitor.enable <;> cases enable
  · rw [s.setGlobal_stores period on]
  · rw [s.setGlobal_opens period on]
  · rw [s.setGlobal_closes period on]
  · rw [s.setGlobal_renews period on]

/-- The global setting that MONITOR_GLOBAL stores, with the deadline it sets, discards or leaves (R122, R123). -/
theorem State.setGlobal_monitor : (s.setGlobal enable period).monitor =
    if enable = true then ⟨true, period, some (min (2 ^ 64 - 1) (s.ts + 1000 * period)), false⟩
    else if s.monitor.enable = true then ⟨false, period, none, false⟩
    else { s.monitor with period := period } := by
  cases on : s.monitor.enable <;> cases enable
  · rw [s.setGlobal_stores period on]; simp [on]
  · rw [s.setGlobal_opens period on, if_pos rfl]
  · rw [s.setGlobal_closes period on]; simp
  · rw [s.setGlobal_renews period on, if_pos rfl]

/-- What MONITOR_GLOBAL makes of a slot: opening the table puts a configured slot before its opening check, and closing it takes a
PENDING slot back to CLEAR (R122, R123). -/
theorem State.setGlobal_slot (m : SlotId) : (s.setGlobal enable period).slot m =
    if enable = true ∧ s.monitor.enable = false ∧ (s.slot m).config.isSome = true then { s.slot m with opening := true }
    else if enable = false ∧ s.monitor.enable = true ∧ (s.slot m).state = .pending
      then { s.slot m with state := .clear, presentRun := 0 }
    else s.slot m := by
  cases on : s.monitor.enable <;> cases enable
  · rw [s.setGlobal_stores period on]; simp [State.slot]
  · have opened : (s.setGlobal true period).slot m = (s.slot m).opened := by
      rw [s.setGlobal_opens period on]; simp [State.slot]
    simp [opened, Slot.opened]
  · have unqualified : (s.setGlobal false period).slot m = (s.slot m).unqualified := by
      rw [s.setGlobal_closes period on]; simp [State.slot]
    simp [unqualified, Slot.unqualified]
  · rw [s.setGlobal_renews period on]; simp [State.slot]

end

/-- MONITOR_GLOBAL acts on the table, and is answered OK (R122). -/
theorem exec_monitorGlobal (s : State) (r : Record) (p : PairId) (h : s.Takes r .monitorGlobal p) :
    exec (.monitorGlobal r) s = .next
      { s.recordAnswered p r .ok 0 s.ts with
        slots := ((s.startRecord p r).setGlobal (r.flag 0) (r.u16 8)).slots
        monitor := ((s.startRecord p r).setGlobal (r.flag 0) (r.u16 8)).monitor } := by
  refine congrArg Host.Outcome.next ((s.onRecord_takes r .monitorGlobal p _ h).trans ?_)
  rw [State.setGlobal_frame]
  exact s.startRecord_handAck_table r p .ok 0 s.ts _ _ s.lines

/-- Settles O47: each record by its meaning past step 3, MONITOR_RELEASE by the answer of its test. -/
theorem monitorRecordsSetTheirSlots : Obligations.MonitorRecordsSetTheirSlots := by
  intro s r p m
  refine ⟨exec_monitorConfig s r p, exec_monitorRelease_untripped,
    fun g h tripped hg => ⟨fun latch => ?latch, fun v free last => ?stays, fun v free last => ?goes⟩,
    fun h => ⟨_, exec_monitorGlobal s r p h, rfl, State.setGlobal_monitor .., State.setGlobal_slot _ _ _⟩⟩
  case latch => exact exec_monitorRelease_refused h tripped (Slot.releaseTest_of_latch _ hg latch)
  case stays => exact exec_monitorRelease_refused h tripped (Slot.releaseTest_of_last _ hg free last)
  case goes =>
    have released := exec_monitorRelease_released h tripped (Slot.releaseTest_of_last _ hg free last)
    rw [s.releasedLines_of_config tripped hg free] at released
    exact released

end Sys2Proof.Machine

namespace Sys2Proof.Machine

/-! ## A tripped LATCH slot (R132) -/

section
variable {s t : State} {m : SlotId} {g : SlotConfig}

/-- A slot that keeps its configuration and its state stays latched. -/
theorem State.Latched.of_slot (h : s.Latched m g) (config : (t.slot m).config = (s.slot m).config)
    (state : (t.slot m).state = (s.slot m).state) : t.Latched m g := by
  obtain ⟨hg, latch, tripped⟩ := h
  exact ⟨config.trans hg, latch, state.trans tripped⟩

/-- A change that leaves the Monitor Table alone leaves a slot latched. -/
theorem State.Latched.of_slots (e : t.slots = s.slots) (h : s.Latched m g) : t.Latched m g :=
  h.of_slot (by rw [State.slot_of_slots e]) (by rw [State.slot_of_slots e])

/-- A change of another slot leaves a slot latched. -/
theorem State.Latched.updSlot_ne (h : s.Latched m g) {n : SlotId} (hn : n ≠ m) (f : Slot → Slot) : (s.updSlot n f).Latched m g :=
  h.of_slot (by rw [State.updSlot_slot, if_neg hn]) (by rw [State.updSlot_slot, if_neg hn])

/-- A latched slot is TRIPPED. -/
theorem State.Latched.tripped (h : s.Latched m g) : (s.slot m).state = .tripped := by
  obtain ⟨_, _, tripped⟩ := h
  exact tripped

/-- The test of MONITOR_RELEASE refuses a latched slot (R136, rule 2). -/
theorem State.Latched.releaseTest (h : s.Latched m g) : (s.slot m).releaseTest = some .monitorLatched := by
  obtain ⟨hg, latch, _⟩ := h
  exact Slot.releaseTest_of_latch _ hg latch

/-- A slot that is not TRIPPED is another than a latched one. -/
theorem State.Latched.ne_of_not_tripped (h : s.Latched m g) {n : SlotId} (hn : (s.slot n).state ≠ .tripped) : n ≠ m := by
  rintro rfl
  exact hn h.tripped

/-- At a check a latched slot stays TRIPPED, whatever its sample (R130, R132). -/
theorem State.Latched.checkedSlot (h : s.Latched m g) (fb : Vector Bool 16) :
    (s.checkedSlot fb m).config = some g ∧ (s.checkedSlot fb m).state = .tripped := by
  obtain ⟨hg, latch, tripped⟩ := h
  cases ho : (s.slot m).opening with
  | true =>
    rw [State.checkedSlot_unjudged (.inr ho)]
    exact ⟨hg, tripped⟩
  | false => simp [State.checkedSlot_table s fb m g hg ho, Slot.moved_verdict, tripped, latch, hg]

/-- A check event leaves a slot latched (R124, R132). -/
theorem State.Latched.takeCheck (h : s.Latched m g) (fb : Vector Bool 16) : (s.takeCheck fb).Latched m g := by
  unfold State.takeCheck
  split
  · obtain ⟨config, state⟩ := h.checkedSlot fb
    obtain ⟨_, latch, _⟩ := h
    exact ⟨by rw [State.check_slot, config], latch, by rw [State.check_slot, state]⟩
  · exact h

/-- What is taken before a tick leaves a slot latched (log 40). -/
theorem State.Latched.takeDue (h : s.Latched m g) : s.takeDue.Latched m g :=
  State.takeDue_keeps (fun u => u.Latched m g) (fun u a => .of_slots (u.prescaleTick_slots a))
    (fun u a x _ hu _ => .of_slots (u.takeListMsg_slots a x) hu) (fun u n => .of_slots (u.endTickPulse_slots n))
    (fun u p => .of_slots (u.timeOut_slots p)) (fun _ fb hu => hu.takeCheck fb) s h

/-- A MONITOR_GLOBAL leaves a slot latched: it starts no slot afresh that is TRIPPED (R122, R123). -/
theorem State.Latched.setGlobal (h : s.Latched m g) (enable : Bool) (period : Nat) : (s.setGlobal enable period).Latched m g := by
  have resting : ¬(enable = false ∧ s.monitor.enable = true ∧ (s.slot m).state = .pending) := by simp [h.tripped]
  have slot := s.setGlobal_slot enable period m
  rw [if_neg resting] at slot
  split at slot
  · exact h.of_slot (by rw [slot]) (by rw [slot])
  · exact h.of_slot (by rw [slot]) (by rw [slot])

/-- A record leaves a slot latched when what it does past step 3 does. -/
theorem State.Latched.onRecord (h : s.Latched m g) (r : Record) (k : Kind) (f : PairId → State → State)
    (hf : ∀ p u, u.Latched m g → (f p u).Latched m g) : (s.onRecord r k f).Latched m g :=
  s.onRecord_keeps (fun u => u.Latched m g) .of_slots r k f hf h

/-- An ack leaves a slot latched. -/
theorem State.Latched.handAck (h : s.Latched m g) (p : PairId) (st : Status) (d n : Nat) : (s.handAck p st d n).Latched m g :=
  .of_slots (s.handAck_slots p st d n) h

/-- What a command answers leaves a slot latched when its next state does. -/
theorem State.Latched.of_next {u : State} (h : (.next u : Host.Outcome State Fault Refusal) = .next t) (hu : u.Latched m g) :
    t.Latched m g := by
  cases h
  exact hu

/-- MONITOR_CONFIG is refused at a latched slot, and leaves it latched at another (R126). -/
theorem State.Latched.monitorConfig (h : s.Latched m g) (r : Record) (ht : exec (.monitorConfig r) s = .next t) :
    t.Latched m g := by
  refine .of_next ht (h.onRecord r _ _ fun p u hu => ?_)
  dsimp only
  split
  · exact hu.handAck ..
  · next other => exact (hu.updSlot_ne (hu.ne_of_not_tripped other) _).handAck ..

/-- MONITOR_RELEASE is refused at a latched slot, and leaves it latched at another (R136). -/
theorem State.Latched.monitorRelease (h : s.Latched m g) (r : Record) (ht : exec (.monitorRelease r) s = .next t) :
    t.Latched m g := by
  refine .of_next ht (h.onRecord r _ _ fun p u hu => ?_)
  dsimp only
  split
  · split
    · exact hu.handAck ..
    · next free =>
      have other : r.slotAt 8 ≠ m := fun e => by
        rw [e, hu.releaseTest] at free
        cases free
      have told : (u.sendRelease (r.slotAt 8)).Latched m g := .of_slots (u.sendRelease_slots _) hu
      exact (told.updSlot_ne other _).handAck ..
  · exact hu.handAck ..

end

/-- Settles O48: a check keeps a TRIPPED slot of severity LATCH, the monitor records refuse it or reach another slot, and no other
command but a reset reaches the table. -/
theorem latchLastsUntilReset : Obligations.LatchLastsUntilReset := by
  intro c s t m g latched hc h
  cases moves : c.movesSlots with
  | false => exact .of_slots (exec_slots c s t moves h) latched
  | true =>
    cases c
    case tick =>
      refine .of_next h ?_
      split
      · exact latched
      · exact .of_slots (by simp [State.advanceTime, State.offerTick]) latched.takeDue
    case checkEvent fb => exact .of_next h (latched.takeCheck fb)
    case monitorConfig r => exact latched.monitorConfig r h
    case monitorRelease r => exact latched.monitorRelease r h
    case monitorGlobal r => exact .of_next h (latched.onRecord r _ _ fun p u hu => (hu.setGlobal _ _).handAck ..)
    all_goals -- every other command that moves a slot is a reset
      exact absurd (hc.symm.trans moves) nofun

end Sys2Proof.Machine

namespace Sys2Proof.Machine

/-! ## The Ring Engine's side of the machine (R143 to R168) -/

/-- What the Ring Engine knows of a record processor: whether it is idle, the acks it has handed, and the pair it deletes. -/
structure Course where
  idle : Bool
  acks : Nat
  deleting : Option PairId
  drained : Option PairId

/-- The course of a record processor. -/
def Proc.course (x : Proc) : Course := ⟨x == .idle, x.acksHanded, x.deleting, x.drained⟩

/-- The state of the Ring Engine: FAULT, the pairs, the notice ring, the read and write engines, and of the record processors and the
requests that wait what the invariants of the rings speak of. -/
structure RingSide where
  fault : Option ErrorCause
  pairs : Vector Pair 9
  nq : NoticeRing
  engine : Option FetchRead
  writeQ : List QueuedWrite
  onBus : Option BusWrite
  course : PairId → Course
  acks : PairId → Nat

/-- The Ring Engine as a state has it. -/
def State.ringSide (s : State) : RingSide where
  fault := s.fault
  pairs := s.pairs
  nq := s.nq
  engine := s.engine
  writeQ := s.writeQ
  onBus := s.onBus
  course := fun p => (s.proc p).course
  acks := fun p => (s.requests p).countP CqRequest.isAck

/-- States that differ in the blocks outside the Ring Engine have the same Ring Engine. -/
theorem State.ringSide_eq {s t : State} (fault : t.fault = s.fault) (pairs : t.pairs = s.pairs) (nq : t.nq = s.nq)
    (engine : t.engine = s.engine) (writeQ : t.writeQ = s.writeQ) (onBus : t.onBus = s.onBus)
    (course : ∀ p, (t.proc p).course = (s.proc p).course)
    (acks : ∀ p, (t.requests p).countP CqRequest.isAck = (s.requests p).countP CqRequest.isAck) : t.ringSide = s.ringSide := by
  simp only [State.ringSide, fault, pairs, nq, engine, writeQ, onBus, course, acks]

section
variable (s : State)

/-! The updates of a block outside the Ring Engine, and what such blocks hand to each other -/

@[simp] theorem State.updAxis_ringSide (a : AxisId) (f : Axis → Axis) : (s.updAxis a f).ringSide = s.ringSide := rfl
@[simp] theorem State.updList_ringSide (a : AxisId) (f : CList → CList) : (s.updList a f).ringSide = s.ringSide := rfl
@[simp] theorem State.updChan_ringSide (c : ChanId) (f : Channel → Channel) : (s.updChan c f).ringSide = s.ringSide := rfl
@[simp] theorem State.updLine_ringSide (n : LineId) (f : Line → Line) : (s.updLine n f).ringSide = s.ringSide := rfl
@[simp] theorem State.updSlot_ringSide (m : SlotId) (f : Slot → Slot) : (s.updSlot m f).ringSide = s.ringSide := rfl
@[simp] theorem State.tellList_ringSide (a : AxisId) (m : ListMsg) : (s.tellList a m).ringSide = s.ringSide := rfl
@[simp] theorem State.tellLines_ringSide (a : AxisId) (m : LineMsg) : (s.tellLines a m).ringSide = s.ringSide := rfl
@[simp] theorem State.tellChans_ringSide (a : AxisId) (m : ChanMsg) : (s.tellChans a m).ringSide = s.ringSide := rfl
@[simp] theorem State.sendAction_ringSide (n : LineId) (f : FireAction) : (s.sendAction n f).ringSide = s.ringSide := rfl
@[simp] theorem State.sendHold_ringSide (a : AxisId) (c : Cause) : (s.sendHold a c).ringSide = s.ringSide := rfl
@[simp] theorem State.tellTrip_ringSide (n : LineId) (m : TripMsg) : (s.tellTrip n m).ringSide = s.ringSide := rfl
@[simp] theorem State.handNotice_ringSide (n : Notice) : (s.handNotice n).ringSide = s.ringSide := rfl

/-- A report waits beside the acks (R156). -/
theorem State.handReport_ringSide (p : PairId) (q : CqRequest) (h : q.isAck = false) :
    (s.handReport p q).ringSide = s.ringSide :=
  State.ringSide_eq rfl rfl rfl rfl rfl rfl (fun _ => rfl) fun i => by
    unfold State.handReport
    rw [State.setRequests_requests]
    split
    · next e => subst e; simp [h]
    · rfl
@[simp] theorem State.handReport_fire_ringSide (p : PairId) (f : FireReport) :
    (s.handReport p (.fire f)).ringSide = s.ringSide := s.handReport_ringSide p _ rfl
@[simp] theorem State.handReport_retire_ringSide (p : PairId) (r : RetireReport) :
    (s.handReport p (.retire r)).ringSide = s.ringSide := s.handReport_ringSide p _ rfl

/-- A change of the processors that leaves their courses alone. -/
theorem State.updProcs_ringSide (f : PairId → Proc → Proc) (h : ∀ p x, (f p x).course = x.course) :
    (s.updProcs f).ringSide = s.ringSide :=
  State.ringSide_eq rfl rfl rfl rfl rfl rfl (fun p => by rw [State.updProcs_proc, h]) fun _ => rfl

/-- A fold leaves the Ring Engine alone when each of its steps does. -/
theorem State.foldl_ringSide {α : Type} (f : State → α → State) (h : ∀ u x, (f u x).ringSide = u.ringSide) (l : List α) :
    (l.foldl f s).ringSide = s.ringSide :=
  List.foldlRecOn (motive := fun u : State => u.ringSide = s.ringSide) l f rfl fun u hu x _ => (h u x).trans hu

/-! What a record processor takes in the course of its record (R45, R177, R180) -/

@[simp] theorem Proc.notify_course (x : Proc) (g : Byte) (n : Nat) : (x.notify g n).course = x.course := by
  unfold Proc.notify; split <;> rfl
@[simp] theorem Proc.noteEmptied_course (x : Proc) (p : PairId) (live n : Nat) : (x.noteEmptied p live n).course = x.course := by
  unfold Proc.noteEmptied
  split
  · split <;> rfl
  · rfl
@[simp] theorem Proc.addDiscarded_course (x : Proc) (p : PairId) : (x.addDiscarded p).course = x.course := by
  unfold Proc.addDiscarded
  split
  · split <;> rfl
  · rfl
@[simp] theorem Proc.answered_course (x : Proc) (b : Block) (n k : Nat) : (x.answered b n k).course = x.course := by
  unfold Proc.answered; split <;> rfl
@[simp] theorem Proc.offerTick_course (x : Proc) (n : Nat) : (x.offerTick n).course = x.course := by
  unfold Proc.offerTick; split <;> rfl

/-- A record that goes from one phase to another of the same course. -/
theorem State.setPhase_ringSide (p : PairId) (ph ph' : Phase) (hp : (s.proc p).phase = some ph)
    (h : ∀ k c, (Proc.busy k c ph').course = (Proc.busy k c ph).course) : (s.setPhase p ph').ringSide = s.ringSide := by
  cases hx : s.proc p with
  | idle => rw [State.setPhase_idle s p ph' hx]
  | busy k c x =>
    rw [hx] at hp
    cases hp
    rw [State.setPhase_busy s p k c ph ph' hx]
    refine State.ringSide_eq rfl rfl rfl rfl rfl rfl (fun q => ?_) fun _ => rfl
    have other : ({ s with procs := s.procs.set p (.busy k c ph') } : State).proc q = if p = q then .busy k c ph' else s.proc q :=
      s.setProc_proc p q _
    rw [other]
    split
    · next e => rw [← e, hx, h]
    · rfl

/-! Axis Units -/

@[simp] theorem State.hold_ringSide (a : AxisId) (c : Cause) : (s.hold a c).ringSide = s.ringSide := by
  unfold State.hold
  repeat' split
  all_goals rfl
@[simp] theorem State.count_ringSide (a : AxisId) (d : Dir) : (s.count a d).ringSide = s.ringSide := by
  unfold State.count
  repeat' split
  · rfl
  · simp
  · rfl
@[simp] theorem State.takeSample_ringSide (a : AxisId) (chA chB : Bool) : (s.takeSample a chA chB).ringSide = s.ringSide := rfl
@[simp] theorem State.prescalerExpires_ringSide (a : AxisId) (d : Dir) : (s.prescalerExpires a d).ringSide = s.ringSide := by
  simp [State.prescalerExpires]
@[simp] theorem State.prescalerAdvances_ringSide (a : AxisId) : (s.prescalerAdvances a).ringSide = s.ringSide := rfl
@[simp] theorem State.prescaleTick_ringSide (a : AxisId) : (s.prescaleTick a).ringSide = s.ringSide := by
  unfold State.prescaleTick
  repeat' split
  all_goals simp
@[simp] theorem State.indexPreset_ringSide (a : AxisId) (g : AxisConfig) : (s.indexPreset a g).ringSide = s.ringSide := by
  unfold State.indexPreset
  dsimp only
  repeat' split
  all_goals rfl
@[simp] theorem State.configureAxis_ringSide (a : AxisId) (g : AxisConfig) : (s.configureAxis a g).ringSide = s.ringSide := by
  unfold State.configureAxis
  dsimp only
  split <;> split <;> simp
@[simp] theorem State.resume_ringSide (a : AxisId) (x : Target) : (s.resume a x).ringSide = s.ringSide := rfl

/-! Compare lists and the entry pool -/

@[simp] theorem State.release_ringSide (e : Entry) : (s.release e).ringSide = s.ringSide := by
  unfold State.release
  dsimp only
  rw [State.updProcs_ringSide]
  · rfl
  · intro p x
    split <;> split <;> simp
@[simp] theorem State.retire_ringSide (e : Entry) : (s.retire e).ringSide = s.ringSide := by simp [State.retire]
@[simp] theorem State.releaseAll_ringSide (es : List Entry) : (s.releaseAll es).ringSide = s.ringSide :=
  State.foldl_ringSide s _ (fun u e => u.release_ringSide e) es
@[simp] theorem State.retireAll_ringSide (es : List Entry) : (s.retireAll es).ringSide = s.ringSide :=
  State.foldl_ringSide s _ (fun u e => u.retire_ringSide e) es
@[simp] theorem State.reportRetire_ringSide (e : Entry) (x : Reason) (pos : Int) (serial stamp : Nat) :
    (s.reportRetire e x pos serial stamp).ringSide = s.ringSide := by
  unfold State.reportRetire; split <;> simp
@[simp] theorem State.advance_ringSide (a : AxisId) (k : AxisKind) (e : Entry) (order : Option Nat) (f : FirePoint) :
    (s.advance a k e order f).ringSide = s.ringSide := by
  unfold State.advance
  repeat' split
  all_goals simp
@[simp] theorem State.fire_ringSide (a : AxisId) (k : AxisKind) (e : Entry) (order : Option Nat) (f : FirePoint) (reports : Bool) :
    (s.fire a k e order f reports).ringSide = s.ringSide := by
  unfold State.fire
  dsimp only
  split <;> split <;> simp
@[simp] theorem State.takeListMsg_ringSide (a : AxisId) (m : ListMsg) : (s.takeListMsg a m).ringSide = s.ringSide := by
  have fired (u : State) (k : AxisKind) (c : Count) (x : Armed) : (State.fireArmed a k c u x).ringSide = u.ringSide := by
    simp [State.fireArmed]
  cases m with
  | freeze => rfl
  | unfreeze => rfl
  | count c =>
    unfold State.takeListMsg State.crossing
    dsimp only
    repeat' split
    · rfl
    · exact State.foldl_ringSide _ _ (fun u x => fired u _ c x) _
    · rfl
@[simp] theorem State.takeCounts_ringSide (a : AxisId) : (s.takeCounts a).ringSide = s.ringSide :=
  State.takeCounts_keeps (fun u => u.ringSide = s.ringSide) a (fun u m _ h _ => (u.takeListMsg_ringSide a m).trans h) s rfl
@[simp] theorem State.listBefore_ringSide (n : LineId) : (s.listBefore n).ringSide = s.ringSide :=
  State.listBefore_keeps (fun u => u.ringSide = s.ringSide) (fun u a m _ h _ => (u.takeListMsg_ringSide a m).trans h) s n rfl
@[simp] theorem State.allocate_ringSide (p : PairId) (e : Entry) : (s.allocate p e).ringSide = s.ringSide := rfl
@[simp] theorem State.insertActivated_ringSide (a : AxisId) (w : Waiting) (origin : Int) (g : AxisConfig) :
    (s.insertActivated a w origin g).ringSide = s.ringSide := by
  unfold State.insertActivated
  dsimp only
  repeat' split
  all_goals simp
@[simp] theorem State.removeArmed_ringSide (a : AxisId) (reaches : Entry → Bool) : (s.removeArmed a reaches).ringSide = s.ringSide := by
  simp [State.removeArmed]
@[simp] theorem State.answer_ringSide (p : PairId) (b : Block) (n : Nat) : (s.answer p b n).ringSide = s.ringSide :=
  s.updProcs_ringSide _ fun q x => by split <;> simp
@[simp] theorem State.answerExcluded_ringSide (p : PairId) (b : Block) : (s.answerExcluded p b).ringSide = s.ringSide :=
  s.updProcs_ringSide _ fun q x => by split <;> simp

/-! Capture channels, lines and the Monitor Table -/

@[simp] theorem State.captureEdge_ringSide (c : ChanId) (g : ChanConfig) : (s.captureEdge c g).ringSide = s.ringSide := by
  have reported (u : State) (k : Capture) (n : Nat) (held unclaimed : Bool) :
      (u.reportCapture c g k n held unclaimed).ringSide = u.ringSide := by
    unfold State.reportCapture; split <;> rfl
  unfold State.captureEdge State.afterLatch
  dsimp only
  repeat' split
  all_goals simp [reported]
@[simp] theorem State.takeLevel_ringSide (c : ChanId) (input : InputId) (level : Bool) :
    (s.takeLevel c input level).ringSide = s.ringSide := rfl
@[simp] theorem State.removeWaiting_ringSide (p : PairId) (c : ChanId) (reaches : Entry → Bool) (f : Channel → Channel) :
    (s.removeWaiting p c reaches f).ringSide = s.ringSide := by simp [State.removeWaiting]
@[simp] theorem State.endTickPulse_ringSide (n : LineId) : (s.endTickPulse n).ringSide = s.ringSide := by
  rw [State.endTickPulse_frame]; rfl
@[simp] theorem State.takeNotice_ringSide (n : LineId) (m : TripMsg) (rest : List TripMsg) :
    (s.takeNotice n m rest).ringSide = s.ringSide := by rw [State.takeNotice_frame]; rfl
@[simp] theorem State.settle_ringSide (q : QueryOf) : (s.settle q).ringSide = s.ringSide := by rw [State.settle_frame]; rfl
@[simp] theorem State.takeCheck_ringSide (fb : Vector Bool 16) : (s.takeCheck fb).ringSide = s.ringSide := by
  unfold State.takeCheck
  split
  · rw [State.check_frame]; rfl
  · rfl
@[simp] theorem State.sendRelease_ringSide (m : SlotId) : (s.sendRelease m).ringSide = s.ringSide := by rw [State.sendRelease_eq]; rfl
@[simp] theorem State.setGlobal_ringSide (enable : Bool) (period : Nat) : (s.setGlobal enable period).ringSide = s.ringSide := by
  rw [State.setGlobal_frame]; rfl
@[simp] theorem State.offerTick_ringSide : s.offerTick.ringSide = s.ringSide := by
  have monitored (u : State) (m : Monitor) : ({ u with monitor := m } : State).ringSide = u.ringSide := rfl
  unfold State.offerTick
  rw [monitored, State.updProcs_ringSide _ _ fun _ x => x.offerTick_course s.ts]
  rfl
@[simp] theorem State.advanceTime_ringSide : s.advanceTime.ringSide = s.ringSide := by
  rw [State.advanceTime, State.offerTick_ringSide]
  rfl

end

end Sys2Proof.Machine

namespace Sys2Proof.Machine

/-! ## What a command does at the Ring Engine (08, 09) -/

/-- A state in the course of a command, with the pair whose record the command has begun and not yet brought to a phase or an ack. -/
abbrev Moment := Option PairId × State

/-- One event at the Ring Engine. -/
inductive RingStep : Moment → Moment → Prop
  /-- Something happens in another block. -/
  | elsewhere {x : Option PairId} {s t : State} (h : t.ringSide = s.ringSide) : RingStep (x, s) (x, t)
  /-- A grant (R154). -/
  | grant {s : State} (p : PairId) (free : s.engine = none) (wants : s.wantsFetch p = true) : RingStep (none, s) (none, s.grant p)
  /-- A read ends without a record (R148, R163). -/
  | endRead {s : State} (e : FetchRead) (h : s.engine = some e) : RingStep (none, s) (none, s.endRead e.pair)
  /-- A read is answered by a record (R155). -/
  | start {s : State} (e : FetchRead) (r : Record) (h : s.engine = some e) : RingStep (none, s) (some e.pair, s.startRecord e.pair r)
  /-- The record that has begun hands its ack at once (R172). -/
  | answer {s : State} (p : PairId) (st : Status) (d n : Nat) : RingStep (some p, s) (none, s.handAck p st d n)
  /-- The record that has begun goes to a phase that deletes no pair (R168). -/
  | proceed {s : State} (p : PairId) (ph : Phase) (plain : ∀ k c, (Proc.busy k c ph).course = ⟨false, 0, none, none⟩) :
    RingStep (some p, s) (none, s.setPhase p ph)
  /-- The record that has begun drains a pair (R150). -/
  | drain {s : State} (p q : PairId) (discard : Bool) (work : q ≠ 0) (draining : (s.pair q).state = .draining) :
    RingStep (some p, s) (none, s.setPhase p (.draining q discard))
  /-- A record that has handed no ack hands it (R172). -/
  | ack {x : Option PairId} {s : State} (p : PairId) (st : Status) (d n : Nat) (h : (s.proc p).acksHanded = 0) :
    RingStep (x, s) (x, s.handAck p st d n)
  /-- A pair is created (R149). -/
  | create {x : Option PairId} {s : State} (q : PairId) (r : Record) (absent : (s.pair q).state = .absent)
    (size : ringSize (r.u16 34) = true) : RingStep (x, s) (x, (s.updPair q fun _ => Record.newPair r).queueZeros q)
  /-- A pair begins to drain (R150). -/
  | startDrain {x : Option PairId} {s : State} (q : PairId) (work : q ≠ 0) (present : (s.pair q).state ≠ .absent) :
    RingStep (x, s) (x, s.updPair q fun y => { y with state := .draining })
  /-- A drained pair is discarded (R151). -/
  | discard {s : State} (q : PairId) (h : (s.proc 0).deleting = some q) (free : s.granted q = false) (idle : s.proc q = .idle) :
    RingStep (none, s) (none, s.startDiscard q)
  /-- A drained pair becomes ABSENT, and its DELETE_PAIR is answered (R151). -/
  | delete {s : State} (q : PairId) (st : Status) (d n : Nat) (h : (s.proc 0).deleting = some q)
    (drained : (s.proc 0).drained = some q ∨ (s.granted q = false ∧ s.proc q = .idle)) :
    RingStep (none, s) (none, (s.becomeAbsent q).handAck 0 st d n)
  /-- A drained pair with entries stays, and its DELETE_PAIR is answered (R151). -/
  | undrain {s : State} (q : PairId) (st : Status) (d n : Nat) (h : (s.proc 0).deleting = some q) :
    RingStep (none, s) (none, (s.updPair q Pair.undrained).handAck 0 st d n)
  /-- The notice ring is set up (R152). -/
  | setNotices {x : Option PairId} {s : State} (base : W64) (size : Nat) (h : ringSize size = true) :
    RingStep (x, s) (x, s.setNotices base size)
  /-- A snapshot is queued (R184). -/
  | queueSnapshot {x : Option PairId} {s : State} (q : QueryOf) (addr : W64) : RingStep (x, s) (x, s.queueSnapshot q addr)
  /-- A device fault (R143). -/
  | fault {s : State} (c : ErrorCause) : RingStep (none, s) (none, s.setFault c)
  /-- An error of a work pair (R148). -/
  | cause {s : State} (p : PairId) (c : ErrorCause) (work : p ≠ 0) : RingStep (none, s) (none, s.setCause p c)
  /-- A completion ring takes a request (R156). -/
  | request {s : State} (p : PairId) (q : CqRequest) (rest : List CqRequest) (h : s.requests p = q :: rest) :
    RingStep (none, s) (none, (s.setRequests p rest).takeRequest p q)
  /-- The notice ring takes a notice (R157). -/
  | notice {s : State} (n : Notice) : RingStep (none, s) (none, s.takeNotification n)
  /-- A write goes onto the bus (R159). -/
  | issue {s : State} (w : QueuedWrite) (rest : List QueuedWrite) (free : s.onBus = none) (h : s.writeQ = w :: rest) :
    RingStep (none, s) (none, { s with writeQ := rest, onBus := some ⟨w, s.writeAddr w, false⟩ })
  /-- A record is written, and its tail write is queued (R159). -/
  | written {s : State} (ring : RingId) (slot next : Nat) (data : List Byte) (addr : W64)
    (h : s.onBus = some ⟨.record ring slot next data, addr, false⟩) :
    RingStep (none, s) (none, { s.endWrite with writeQ := s.writeQ ++ [.tail ring next true] })
  /-- The write on the bus is answered and moves nothing (R144, R151, R159). -/
  | endWrite {s : State} : RingStep (none, s) (none, s.endWrite)
  /-- A completion record is lost on the bus (R164). -/
  | loseRecord {s : State} (p : PairId) (slot next : Nat) (data : List Byte) (addr : W64) (stale : Bool)
    (h : s.onBus = some ⟨.record (.cq p) slot next data, addr, stale⟩) (counts : stale = true → p = 0) :
    RingStep (none, s) (none, s.endWrite.updPair p Pair.countStopped)
  /-- A notice is lost on the bus (R164). -/
  | loseNotice {s : State} (slot next : Nat) (data : List Byte) (addr : W64)
    (h : s.onBus = some ⟨.record .nq slot next data, addr, false⟩) : RingStep (none, s) (none, s.endWrite.recordError .nq)
  /-- A tail is published (R146, R159). -/
  | publish {s : State} (ring : RingId) (v : Nat) (addr : W64) (h : s.onBus = some ⟨.tail ring v true, addr, false⟩) :
    RingStep (none, s) (none, s.endWrite.publish ring v)
  /-- A write to SQ_POST or to the base of the admin submission ring (R144, R161): no index of a completion ring moves. -/
  | submission {s : State} (p : PairId) (f : Pair → Pair) (present : p = 0 ∨ (s.pair p).state ≠ .absent)
    (same : ∀ q, f q = { q with sqBase := (f q).sqBase, sqHead := (f q).sqHead, sqPost := (f q).sqPost }) :
    RingStep (none, s) (none, s.updPair p f)
  /-- The admin completion ring starts afresh, with a base and sizes (R144). -/
  | restart {s : State} (f : Pair → Pair) (size : (f (s.pair 0)).cqSize = (s.pair 0).cqSize ∨ ringSize (f (s.pair 0)).cqSize = true)
    (state : (f (s.pair 0)).state = (s.pair 0).state) (free : s.granted 0 = false) (idle : s.proc 0 = .idle) :
    RingStep (none, s) (none, (s.updPair 0 f).restartAdminCq)
  /-- CQ_DONE takes a value in the span (R162). -/
  | cqDone {s : State} (p : PairId) (v : Nat) (present : (s.pair p).state ≠ .absent)
    (span : inSpan (s.pair p).cqSize (s.pair p).cqDone (s.pair p).cqPub v = true) :
    RingStep (none, s) (none, s.updPair p fun q => { q with cqDone := v })
  /-- NQ_DONE takes a value in the span (R162). -/
  | nqDone {s : State} (v : Nat) (set : s.nq.state ≠ .unset) (span : inSpan s.nq.size s.nq.done s.nq.pub v = true) :
    RingStep (none, s) (none, { s with nq := { s.nq with done := v } })
  /-- The notice ring enters ERROR (R162). -/
  | failNotices {s : State} (active : s.nq.state = .active) : RingStep (none, s) (none, s.failNoticeRing)

/-- From one moment to another the Ring Engine has gone through such events. -/
structure RingReach (m m' : Moment) : Prop where
  /-- The events, one after another. -/
  events : Relation.ReflTransGen RingStep m m'

/-- States with the same Ring Engine know the same acks handed. -/
theorem State.acksHanded_of_ringSide {s t : State} (h : t.ringSide = s.ringSide) (p : PairId) :
    (t.proc p).acksHanded = (s.proc p).acksHanded :=
  congrArg Course.acks (congrFun (congrArg RingSide.course h) p)

/-- A record in a phase but the last has handed no ack. -/
theorem Proc.acksHanded_of_phase {x : Proc} {ph : Phase} (h : x.phase = some ph) (running : ph ≠ .acked) : x.acksHanded = 0 := by
  simp [Proc.acksHanded, h, running]

namespace RingReach

theorem refl (m : Moment) : RingReach m m := ⟨.refl⟩

theorem single {m m' : Moment} (h : RingStep m m') : RingReach m m' := ⟨.single h⟩

theorem trans {m m' m'' : Moment} (h : RingReach m m') (h' : RingReach m' m'') : RingReach m m'' := ⟨h.events.trans h'.events⟩

section
variable {x : Option PairId} {s t u : State} {p : PairId}

/-- What happens in another block is no event of the Ring Engine. -/
theorem elsewhere (h : t.ringSide = s.ringSide) : RingReach (x, s) (x, t) := single (.elsewhere h)

/-- What happens in other blocks comes before an ack of a record that has begun. -/
theorem answer {st : Status} {d n : Nat} (h : t.ringSide = s.ringSide) : RingReach (some p, s) (none, t.handAck p st d n) :=
  (elsewhere h).trans (single (.answer p st d n))

/-- What happens in other blocks comes before the phase of a record that has begun. -/
theorem proceed {ph : Phase} (plain : ∀ k c, (Proc.busy k c ph).course = ⟨false, 0, none, none⟩) (h : t.ringSide = s.ringSide) :
    RingReach (some p, s) (none, t.setPhase p ph) :=
  (elsewhere h).trans (single (.proceed p ph plain))

/-- What happens in other blocks comes before the ack of a record in progress. -/
theorem ack {st : Status} {d n : Nat} (hp : (s.proc p).acksHanded = 0) (h : t.ringSide = s.ringSide) :
    RingReach (x, s) (x, t.handAck p st d n) :=
  (elsewhere h).trans (single (.ack p st d n ((State.acksHanded_of_ringSide h p).trans hp)))

/-- What a command answers, it reaches. -/
theorem of_next (h : (.next u : Host.Outcome State Fault Refusal) = .next t) (hu : RingReach (none, s) (none, u)) :
    RingReach (none, s) (none, t) := by
  cases h
  exact hu

end

end RingReach

end Sys2Proof.Machine

namespace Sys2Proof.Machine

/-! ## The events of every command at the Ring Engine -/

/-- When the admin registers take a write (R144). -/
theorem State.adminOpen_iff (s : State) : s.adminOpen = true ↔ s.enable = false ∧ s.granted 0 = false ∧ s.proc 0 = .idle := by
  simp [State.adminOpen, State.adminIdle, State.inProgress]

/-- When a pair requests a fetch (R153). -/
theorem State.wantsFetch_iff (s : State) (p : PairId) : s.wantsFetch p = true ↔
    s.enable = true ∧ ((s.pair p).state = .active ∧ s.stopped p = false) ∧ (s.pair p).sqPost ≠ (s.pair p).sqHead ∧
      (s.granted p = false ∧ s.proc p = .idle) ∧ 1 ≤ (s.pair p).free := by
  simp only [State.wantsFetch, State.inService, State.inProgress, Bool.and_eq_true, decide_eq_true_eq, Bool.not_eq_true', bne_iff_ne,
    bne_eq_false_iff_eq]
  tauto

/-- The pair that the arbiter grants requests a fetch (R154). -/
theorem State.wantsFetch_of_nextGrant {s : State} {p : PairId} (h : s.nextGrant = some p) : s.wantsFetch p = true := by
  unfold State.nextGrant at h
  split at h
  · next wants =>
    cases h
    exact wants
  · exact List.find?_some h

/-- The pair that a DELETE_PAIR names past step 3 is a work pair (R171). -/
theorem Record.pairAt_ne_zero_of_deletePair {r : Record} (h : badField .deletePair r = none) : r.pairAt 8 ≠ 0 := by
  have range := fieldChecks_of_badField h (4, decide (1 ≤ r.u8 8 ∧ r.u8 8 ≤ 8)) (by simp [fieldChecks])
  simp only [decide_eq_true_eq] at range
  intro e
  have value : r.u8 8 % 9 = 0 := congrArg Fin.val e
  omega

/-- Two changes of a pair, one after the other, are one change. -/
theorem State.updPair_updPair (s : State) (p : PairId) (f g : Pair → Pair) :
    (s.updPair p f).updPair p g = s.updPair p fun q => g (f q) := by
  rw [State.updPair, State.updPair_pair, if_pos rfl]
  simp [State.updPair]

/-- The end of a BARRIER changes no pair (R180). -/
@[simp] theorem State.abortBarrier_pair (s : State) (p q : PairId) : (s.abortBarrier p).pair q = s.pair q := by
  unfold State.abortBarrier; split <;> simp

@[simp] theorem State.writeStatusBlockBase_ringSide (s : State) (access : Access) (v : W64) :
    (s.writeStatusBlockBase access v).ringSide = s.ringSide := by
  unfold State.writeStatusBlockBase; split <;> rfl

namespace RingReach

variable (s : State) {t : State}

/-- A record that answers the outstanding read begins (R155). -/
theorem start_fetched {r : Record} {k : Kind} {p : PairId} (h : s.fetchedFor r k = some p) :
    RingReach (none, s) (some p, s.startRecord p r) := by
  unfold State.fetchedFor at h
  split at h
  · next e he =>
    split at h
    · cases h
      exact single (.start e r he)
    · cases h
  · cases h

/-- A record whose kind its ring does not have begins as well (R169). -/
theorem start_badKind {r : Record} {p : PairId} (h : s.badKindFor r = some p) : RingReach (none, s) (some p, s.startRecord p r) := by
  unfold State.badKindFor at h
  split at h
  · next e he =>
    split at h
    · cases h
      exact single (.start e r he)
    · cases h
  · cases h

/-- A record begins, and is refused BAD_FIELD or does what it does past step 3 (R155, R170). -/
theorem onRecord (r : Record) (k : Kind) (f : PairId → State → State)
    (h : ∀ p, s.Takes r k p → RingReach (some p, s.startRecord p r) (none, f p (s.startRecord p r))) :
    RingReach (none, s) (none, s.onRecord r k f) := by
  cases hp : s.fetchedFor r k with
  | none =>
    rw [s.onRecord_none r k f hp]
    exact refl _
  | some p =>
    refine (start_fetched s hp).trans ?_
    cases hb : badField k r with
    | some ix =>
      rw [s.onRecord_badField r k p ix f hp hb, ← State.startRecord_handAck]
      exact answer rfl
    | none =>
      rw [s.onRecord_takes r k p f ⟨hp, hb⟩]
      exact h p ⟨hp, hb⟩

/-- A record of a configured axis is refused NOT_CONFIGURED or does what it does there. -/
theorem onAxis (r : Record) (k : Kind) (f : PairId → AxisId → AxisConfig → State → State)
    (h : ∀ p a g u, RingReach (some p, u) (none, f p a g u)) : RingReach (none, s) (none, s.onAxis r k f) :=
  onRecord s r k _ fun p _ => by
    split
    · exact h ..
    · exact answer rfl

/-- A write to the register window does its work while READY is 1 (R142). -/
theorem whenReady (f : State → State) (h : RingReach (none, s) (none, f s)) : RingReach (none, s) (none, s.whenReady f) := by
  unfold State.whenReady
  split
  · exact refl _
  · exact h

/-- An error that reaches a pair is the device fault or the pair's cause. -/
theorem pairError (p : PairId) (c : ErrorCause) : RingReach (none, s) (none, s.pairError p c) := by
  unfold State.pairError
  split
  · exact single (.fault c)
  · next work => exact single (.cause p c work)

/-! What is taken before a tick -/

theorem timeOut (p : PairId) : RingReach (none, s) (none, s.timeOut p) := by
  unfold State.timeOut
  split
  · next b hb =>
    split
    · exact ack (Proc.acksHanded_of_phase hb nofun) rfl
    · exact refl _
  · exact refl _

theorem takeDue : RingReach (none, s) (none, s.takeDue) :=
  State.takeDue_keeps (fun u => RingReach (none, s) (none, u)) (fun u a h => h.trans (elsewhere (u.prescaleTick_ringSide a)))
    (fun u a m _ h _ => h.trans (elsewhere (u.takeListMsg_ringSide a m)))
    (fun u n h => h.trans (elsewhere (u.endTickPulse_ringSide n))) (fun u p h => h.trans (timeOut u p))
    (fun u fb h => h.trans (elsewhere (u.takeCheck_ringSide fb))) s (refl _)

/-! Records in progress -/

theorem insertArm (p : PairId) (e : Entry) (pos : Int) (g : AxisConfig) (hp : (s.proc p).acksHanded = 0) :
    RingReach (none, s) (none, s.insertArm p e pos g) := by
  unfold State.insertArm
  dsimp only
  repeat' split
  all_goals exact ack hp (by simp)

theorem endCancel (p : PairId) (x : Removing) (hp : (s.proc p).acksHanded = 0) :
    RingReach (none, s) (none, s.endCancel p x) := by
  unfold State.endCancel
  split
  all_goals exact ack hp rfl

theorem configureChan (p : PairId) (c : ChanId) (g : Option ChanConfig) (discard : Bool) :
    RingReach (some p, s) (none, s.configureChan p c g discard) := by
  unfold State.configureChan
  dsimp only
  repeat' split
  all_goals exact answer (by simp)

theorem abortBarrier (x : Option PairId) (p : PairId) : RingReach (x, s) (x, s.abortBarrier p) := by
  unfold State.abortBarrier
  split
  · next b hb => exact ack (Proc.acksHanded_of_phase hb nofun) rfl
  · exact refl _

/-! The drain of a pair -/

theorem drainEnd (h : exec .drainEnd s = .next t) : RingReach (none, s) (none, t) := by
  refine of_next h ?_
  split
  · next p discard hp =>
    have deleting : (s.proc 0).deleting = some p := by simp [Proc.deleting, hp]
    split
    · exact refl _
    · next free =>
      obtain ⟨free, idle⟩ : s.granted p = false ∧ s.proc p = .idle := by simpa [State.inProgress] using free
      repeat' split
      · exact single (.discard p deleting free idle)
      · exact single (.delete p _ _ _ deleting (.inr ⟨free, idle⟩))
      · exact single (.undrain p _ _ _ deleting)
  · exact refl _

theorem discardComplete (h : exec .discardComplete s = .next t) : RingReach (none, s) (none, t) := by
  refine of_next h ?_
  split
  · next q x n hp =>
    split
    · exact single (.delete q _ _ _ (by simp [Proc.deleting, hp]) (.inl (by simp [Proc.drained, hp])))
    · exact refl _
  · exact refl _

/-! Writes to the register window (R144, R161, R162) -/

theorem writeAdminSqBase (access : Access) (v : W64) : RingReach (none, s) (none, s.writeAdminSqBase access v) := by
  unfold State.writeAdminSqBase
  split
  · exact trans (single (.submission 0 _ (.inl rfl) fun _ => rfl)) (single (.submission 0 _ (.inl rfl) fun _ => rfl))
  · exact refl _

theorem writeAdminCqBase (access : Access) (v : W64) : RingReach (none, s) (none, s.writeAdminCqBase access v) := by
  unfold State.writeAdminCqBase
  split
  · next h =>
    obtain ⟨_, free, idle⟩ := s.adminOpen_iff.1 h
    exact single (.restart _ (.inl rfl) rfl free idle)
  · exact refl _

theorem writeAdminSizes (v : W32) : RingReach (none, s) (none, s.writeAdminSizes v) := by
  unfold State.writeAdminSizes
  dsimp only
  split
  · next h =>
    obtain ⟨openNow, _, size⟩ := h
    obtain ⟨_, free, idle⟩ := s.adminOpen_iff.1 openNow
    rw [State.restartAdminSq, State.updPair_updPair]
    exact single (.restart _ (.inr size) rfl free idle)
  · exact refl _

theorem writeSqPost (p : PairId) (v : W32) : RingReach (none, s) (none, s.writeSqPost p v) := by
  unfold State.writeSqPost
  dsimp only
  split
  · split
    · exact single (.submission 0 _ (.inl rfl) fun _ => rfl)
    · exact single (.fault _)
  · next work =>
    split
    · next present =>
      split
      · exact single (.submission p _ (.inr fun absent => by simp [absent] at present) fun _ => rfl)
      · exact single (.cause p _ work)
    · exact refl _

theorem writeCqDone (p : PairId) (v : W32) : RingReach (none, s) (none, s.writeCqDone p v) := by
  unfold State.writeCqDone
  dsimp only
  split
  · exact refl _
  · next present =>
    split
    · next span => exact single (.cqDone p _ present span)
    · exact pairError s p _

theorem writeNqDone (v : W32) : RingReach (none, s) (none, s.writeNqDone v) := by
  unfold State.writeNqDone
  dsimp only
  split
  · exact refl _
  · next set =>
    split
    · next span => exact single (.nqDone _ set span)
    · split
      · next active => exact single (.failNotices active)
      · exact refl _

/-- A write by offset is the write of its register, but for one that starts a soft reset (R142, R143). -/
theorem writeRegister (offset : BitVec 12) (v : W64) (h : (Instr.registerWrite offset v).isReset = false) :
    RingReach (none, s) (none, s.writeRegister offset v) := by
  have control (ho : offset.toNat = 0x010) : RingReach (none, s) (none, s.writeControl (v.truncate 32)) := by
    have offset_eq : offset = 0x010 := BitVec.eq_of_toNat_eq ho
    have bit : (v.truncate 32).getLsbD 1 = false := by simpa [Instr.isReset, offset_eq] using h
    unfold State.writeControl
    rw [bit]
    exact elsewhere rfl
  have either {c : Prop} [Decidable c] {t u : State} (ht : c → RingReach (none, s) (none, t)) (hu : RingReach (none, s) (none, u)) :
      RingReach (none, s) (none, if c then t else u) := by
    split
    · next h => exact ht h
    · exact hu
  have base (access : Access) (v : W64) : RingReach (none, s) (none, s.writeStatusBlockBase access v) :=
    elsewhere (s.writeStatusBlockBase_ringSide access v)
  exact either control <| either (fun _ => base ..) <| either (fun _ => base ..) <|
    either (fun _ => writeAdminSqBase ..) <| either (fun _ => writeAdminSqBase ..) <|
    either (fun _ => writeAdminCqBase ..) <| either (fun _ => writeAdminCqBase ..) <|
    either (fun _ => writeAdminSizes ..) <| either (fun _ => elsewhere rfl) <|
    either (fun _ => writeSqPost ..) <| either (fun _ => writeCqDone ..) <| either (fun _ => writeNqDone ..) (refl _)

/-! The write engine (R159, R164) -/

theorem recordWriteError (h : exec .recordWriteError s = .next t) : RingReach (none, s) (none, t) := by
  refine of_next h ?_
  split
  · next ring slot next data addr stale hb =>
    split
    · exact single .endWrite
    · next counts =>
      cases ring with
      | nq =>
        cases stale with
        | false => exact single (.loseNotice slot next data addr hb)
        | true => exact absurd ⟨rfl, nofun⟩ counts
      | cq p =>
        refine trans (single (.loseRecord p slot next data addr stale hb fun gone => ?_)) (pairError _ p _)
        by_contra work
        exact counts ⟨gone, fun e => work (by cases e; rfl)⟩
  · exact refl _

/-- The answer of a status block write ends it, and publishes its tail or nothing. -/
theorem answerStatus (b : BusWrite) (hb : s.onBus = some b) : RingReach (none, s) (none, s.endWrite.answerStatus b.write b.stale) := by
  obtain ⟨w, addr, stale⟩ := b
  unfold State.answerStatus
  dsimp only
  split
  · next ring v publishes =>
    split
    · next h =>
      obtain ⟨rfl, rfl⟩ := h
      exact single (.publish ring v addr hb)
    · exact single .endWrite
  · exact single .endWrite

end RingReach

/-! ### Every command -/

/-- Every command but a reset is made of events at the Ring Engine: what a step can do to the rings. -/
theorem exec_ringReach (c : Instr) (s t : State) (hc : c.isReset = false) (h : exec c s = .next t) :
    RingReach (none, s) (none, t) := by
  cases c
  case fullReset | softReset => cases hc
  case tick =>
    refine .of_next h ?_
    split
    · exact .refl _
    · exact (RingReach.takeDue s).trans (.elsewhere (State.advanceTime_ringSide _))
  case registerWrite offset v => exact .of_next h (.whenReady s _ (.writeRegister s offset v hc))
  case enableWrite | irqMaskWrite => exact .of_next h (.whenReady s _ (.elsewhere rfl))
  case statusBlockBaseWrite => exact .of_next h (.whenReady s _ (.elsewhere (by simp)))
  case adminSqBaseWrite => exact .of_next h (.whenReady s _ (.writeAdminSqBase s ..))
  case adminCqBaseWrite => exact .of_next h (.whenReady s _ (.writeAdminCqBase s ..))
  case adminSizesWrite => exact .of_next h (.whenReady s _ (.writeAdminSizes s _))
  case sqPostWrite => exact .of_next h (.whenReady s _ (.writeSqPost s ..))
  case cqDoneWrite => exact .of_next h (.whenReady s _ (.writeCqDone s ..))
  case nqDoneWrite => exact .of_next h (.whenReady s _ (.writeNqDone s _))
  case holdInAssertAxis => exact .of_next h (.elsewhere (by rw [State.hold_ringSide]; rfl))
  case holdInDeassertAxis | holdInAssertLine | holdInDeassertLine | inputReferenceUpdate => exact .of_next h (.elsewhere rfl)
  case activationInsertion a which =>
    refine .of_next h (.elsewhere ?_)
    dsimp only
    repeat' split
    · rw [State.updProcs_ringSide]
      · simp
      · intro p x
        split <;> simp
    all_goals simp
  case allocation p =>
    refine .of_next h ?_
    split
    · next hp =>
      split
      · exact .ack (Proc.acksHanded_of_phase hp nofun) rfl
      · exact .elsewhere (State.setPhase_ringSide _ p _ _ hp fun _ _ => rfl)
    · next hp =>
      split
      · exact .ack (Proc.acksHanded_of_phase hp nofun) rfl
      · exact .elsewhere (State.setPhase_ringSide _ p _ _ hp fun _ _ => rfl)
    · exact .refl _
  case insertion p =>
    refine .of_next h ?_
    split
    · next e pos hp =>
      split
      · have taken := s.takeCounts_ringSide e.axis
        have running := (State.acksHanded_of_ringSide taken p).trans (Proc.acksHanded_of_phase hp nofun)
        exact (RingReach.elsewhere taken).trans (.insertArm _ p e pos _ running)
      · exact .refl _
    · exact .refl _
  case append p =>
    refine .of_next h ?_
    split
    · next hp =>
      split
      all_goals exact .ack (Proc.acksHanded_of_phase hp nofun) (by simp)
    · exact .refl _
  case lineHostWrite p =>
    refine .of_next h ?_
    split
    · next hp =>
      repeat' split
      all_goals exact .ack (Proc.acksHanded_of_phase hp nofun) rfl
    · exact .refl _
  case removalAnswer p =>
    refine .of_next h ?_
    have phase {ph ph' : Phase} (hp : (s.proc p).phase = some ph)
        (same : ∀ k c, (Proc.busy k c ph').course = (Proc.busy k c ph).course) : RingReach (none, s) (none, s.setPhase p ph') :=
      .elsewhere (s.setPhase_ringSide p ph ph' hp same)
    dsimp only
    split
    · next hp =>
      repeat' split
      · exact .endCancel s p _ (Proc.acksHanded_of_phase hp nofun)
      · exact phase hp fun _ _ => rfl
      · exact .refl _
    · next hp =>
      repeat' split
      · exact .ack (Proc.acksHanded_of_phase hp nofun) rfl
      · exact phase hp fun _ _ => rfl
      · exact .refl _
    · next hp =>
      split
      · exact phase hp fun _ _ => rfl
      · exact .refl _
    · exact .refl _
  case barrierReleaseNotice p =>
    refine .of_next h ?_
    split
    · next hp =>
      repeat' split
      · exact .ack (Proc.acksHanded_of_phase hp nofun) rfl
      · exact .elsewhere (s.setPhase_ringSide p _ _ hp fun _ _ => rfl)
      · exact .elsewhere (s.setPhase_ringSide p _ _ hp fun _ _ => rfl)
      · exact .refl _
    · exact .refl _
  case barrierTimeout p => exact .of_next h (.timeOut s p)
  case drainEnd => exact .drainEnd s h
  case discardComplete => exact .discardComplete s h
  case fetchGrant =>
    refine .of_next h ?_
    split
    · exact .refl _
    · next free =>
      split
      · next p hp => exact .single (.grant p free (s.wantsFetch_of_nextGrant hp))
      · exact .refl _
  case fetchBusError =>
    refine .of_next h ?_
    split
    · next e he => exact (RingReach.single (.endRead e he)).trans (.pairError _ _ _)
    · exact .refl _
  case fetchReadDiscarded =>
    refine .of_next h ?_
    split
    · next e he =>
      split
      · exact .single (.endRead e he)
      · exact .refl _
    · exact .refl _
  case postCompletion p =>
    refine .of_next h ?_
    split
    · next q rest hq => exact .single (.request p q rest hq)
    · exact .refl _
  case postNotice =>
    refine .of_next h ?_
    split
    · next n rest _ =>
      have popped : RingReach (none, s) (none, { s with nqReq := rest }) := .elsewhere rfl
      exact popped.trans (.single (.notice n))
    · exact .refl _
  case writeIssue =>
    refine .of_next h ?_
    split
    · next w rest hb hw => exact .single (.issue w rest hb hw)
    · exact .refl _
  case recordWriteDone =>
    refine .of_next h ?_
    split
    · next ring slot next data addr stale hb =>
      split
      · exact .single .endWrite
      · next here =>
        rw [Bool.not_eq_true] at here
        subst here
        exact .single (.written ring slot next data addr hb)
    · exact .refl _
  case recordWriteError => exact .recordWriteError s h
  case statusBlockWriteDone =>
    refine .of_next h ?_
    split
    · next b hb =>
      split
      · exact .answerStatus s b hb
      · exact .refl _
    · exact .refl _
  case statusBlockWriteError =>
    refine .of_next h ?_
    split
    · next b hb =>
      split
      · exact (RingReach.answerStatus s b hb).trans (.single (.fault _))
      · exact .refl _
    · exact .refl _
  case queryWriteDone success =>
    refine .of_next h ?_
    split
    · next hp =>
      have ended : RingReach (none, s) (none, s.endWrite) := .single .endWrite
      exact ended.trans (.ack (Proc.acksHanded_of_phase hp nofun) rfl)
    · exact .refl _
  case badKind r =>
    refine .of_next h ?_
    split
    · next p hp =>
      exact (RingReach.start_badKind s hp).trans (.answer rfl)
    · exact .refl _
  case createPair r =>
    refine .of_next h (.onRecord s r _ _ fun p hr => ?_)
    dsimp only
    split
    · exact .answer rfl
    · next absent =>
      refine (RingReach.single (.create (r.pairAt 8) r (by simpa using absent) ?_)).trans (.answer rfl)
      exact fieldChecks_of_badField hr.2 (9, ringSize (r.u16 34)) (by simp [fieldChecks])
  case deletePair r =>
    refine .of_next h (.onRecord s r _ _ fun p hr => ?_)
    dsimp only
    split
    · exact .answer rfl
    · next present =>
      have work := Record.pairAt_ne_zero_of_deletePair hr.2
      refine (RingReach.single (.startDrain (r.pairAt 8) work present)).trans ((RingReach.abortBarrier _ _ (r.pairAt 8)).trans ?_)
      exact .single (.drain p _ _ work (by simp))
  case setNoticeRing r =>
    refine .of_next h (.onRecord s r _ _ fun p hr => ?_)
    refine (RingReach.single (.setNotices _ _ ?_)).trans (.answer rfl)
    exact fieldChecks_of_badField hr.2 (5, ringSize (r.u16 16)) (by simp [fieldChecks])
  case query r fb =>
    refine .of_next h (.onRecord s r _ _ fun p _ => ?_)
    have settled (u : State) (q : QueryOf) : RingReach (some p, u) (some p, { u with pins := { u.pins with fb := fb } }.settle q) :=
      .elsewhere (State.settle_ringSide _ q)
    exact (settled _ _).trans ((RingReach.single (.queueSnapshot _ _)).trans (.proceed (fun _ _ => rfl) rfl))
  case arm r =>
    refine .of_next h (.onRecord s r _ _ fun p _ => ?_)
    dsimp only
    split
    · exact .answer rfl
    · exact .proceed (fun _ _ => rfl) rfl
  case armDeferred r =>
    refine .of_next h (.onRecord s r _ _ fun p _ => ?_)
    split
    · exact .answer rfl
    · exact .proceed (fun _ _ => rfl) rfl
  case barrier r =>
    refine .of_next h (.onRecord s r _ _ fun p _ => ?_)
    dsimp only
    split
    · exact .answer rfl
    · exact .proceed (fun _ _ => rfl) rfl
  case cancel | lineWrite => exact .of_next h (.onRecord s _ _ _ fun p _ => .proceed (fun _ _ => rfl) rfl)
  case cancelAxis => exact .of_next h (.onAxis s _ _ _ fun p a g u => .proceed (fun _ _ => rfl) rfl)
  case nop | monitorGlobal => exact .of_next h (.onRecord s _ _ _ fun p _ => .answer (by simp))
  case captureConfig r =>
    refine .of_next h (.onRecord s r _ _ fun p _ => ?_)
    repeat' split
    · exact .answer rfl
    · exact .configureChan ..
    · exact .configureChan ..
  case axisConfig =>
    refine .of_next h (.onRecord s _ _ _ fun p _ => ?_)
    split
    all_goals exact .answer (by simp)
  case lineConfig | monitorConfig | monitorRelease =>
    refine .of_next h (.onRecord s _ _ _ fun p _ => ?_)
    dsimp only
    repeat' split
    all_goals exact .answer (by simp)
  case axisStart | axisStop | axisHalt | axisResume | axisSetPosition | axisHome =>
    refine .of_next h (.onAxis s _ _ _ fun p a g u => ?_)
    repeat' split
    all_goals exact .answer (by simp)
  case resetDone =>
    refine .of_next h (.elsewhere ?_)
    split <;> rfl
  all_goals -- the commands of the blocks outside the Ring Engine
    refine .of_next h (.elsewhere ?_)
    repeat' split
    all_goals simp

end Sys2Proof.Machine

namespace Sys2Proof.Machine

/-! ## A device fault lasts (R143) -/

@[simp] theorem State.takeRequest_fault (s : State) (p : PairId) (r : CqRequest) : (s.takeRequest p r).fault = s.fault := by
  unfold State.takeRequest State.takeAck State.takeReport
  dsimp only
  repeat' split
  all_goals rfl

@[simp] theorem State.takeNotification_fault (s : State) (n : Notice) : (s.takeNotification n).fault = s.fault := by
  unfold State.takeNotification
  repeat' split
  all_goals rfl

/-- Every event at the Ring Engine leaves the cause of a device fault as it is. -/
theorem RingStep.fault_kept {m m' : Moment} {c : ErrorCause} (h : RingStep m m') (hf : m.2.fault = some c) : m'.2.fault = some c := by
  cases h with
  | elsewhere h => exact (congrArg RingSide.fault h).trans hf
  | answer | proceed | drain | ack | discard | delete | undrain => simpa [State.startDiscard, State.becomeAbsent_eq] using hf
  | fault d => exact (congrArg State.fault (State.setFault_again _ d c hf)).trans hf
  | cause =>
    dsimp only
    unfold State.setCause
    split <;> exact hf
  | request => exact (State.takeRequest_fault ..).trans hf
  | notice => exact (State.takeNotification_fault ..).trans hf
  | publish ring =>
    cases ring <;> exact hf
  | _ => exact hf

/-- What every event keeps, the events of a command keep. -/
theorem RingReach.keeps {m m' : Moment} (h : RingReach m m') (P : Moment → Prop) (step : ∀ m m', RingStep m m' → P m → P m')
    (hm : P m) : P m' := by
  have events := h.events
  clear h
  induction events with
  | refl => exact hm
  | tail _ one ih => exact step _ _ one ih

/-- Settles O10: every command but a reset is made of events at the Ring Engine, and every event keeps the cause. -/
theorem faultLastsUntilReset : Obligations.FaultLastsUntilReset := fun c s t x hf hc h =>
  (exec_ringReach c s t hc h).keeps (fun m => m.2.fault = some x) (fun _ _ one => one.fault_kept) hf

end Sys2Proof.Machine

namespace Sys2Proof.Machine

/-! ## One record at a time (R153 to R156, R168) -/

/-- One record at a time, where the pair `x` may owe the ack or the phase of the record that has begun: it counts as handed. -/
structure State.RecordsKept (x : Option PairId) (s : State) : Prop where
  granted : ∀ p, s.granted p = true → s.proc p = .idle
  reserved : ∀ p, s.granted p = true ∨ s.inProgress p = true → (s.pair p).reserved = true
  acks : ∀ p, (s.requests p).countP CqRequest.isAck + (if x = some p then 1 else 0) = (s.proc p).acksHanded
  absent : ∀ p, (s.pair p).state = .absent → s.granted p = false ∧ s.proc p = .idle
  deleting : ∀ p, (s.proc 0).deleting = some p → p ≠ 0 ∧ (s.pair p).state = .draining
  drained : ∀ p, (s.proc 0).drained = some p → s.granted p = false ∧ s.proc p = .idle
  admin : (s.pair 0).state = .active

/-- With no record begun it is the invariant. -/
theorem State.oneRecord_iff (s : State) : s.OneRecord ↔ s.RecordsKept none :=
  ⟨fun ⟨granted, reserved, acks, absent, deleting, drained, admin⟩ => ⟨granted, reserved, acks, absent, deleting, drained, admin⟩,
    fun ⟨granted, reserved, acks, absent, deleting, drained, admin⟩ => ⟨granted, reserved, acks, absent, deleting, drained, admin⟩⟩

/-! ### What the invariant sees of a processor and of the engine -/

theorem State.inProgress_iff (s : State) (p : PairId) : s.inProgress p = true ↔ s.proc p ≠ .idle := by simp [State.inProgress]

/-- Processors of the same course are idle together. -/
theorem Proc.idle_of_course {x y : Proc} (h : x.course = y.course) : x = .idle ↔ y = .idle := by
  have idle : (x == .idle) = (y == .idle) := congrArg Course.idle h
  rw [← beq_iff_eq, idle, beq_iff_eq]

theorem State.granted_of_engine {s t : State} (h : t.engine = s.engine) (p : PairId) : t.granted p = s.granted p := by
  simp only [State.granted, h]

/-- While no read is outstanding no pair has a grant (R154). -/
theorem State.granted_of_free {s : State} (h : s.engine = none) (p : PairId) : s.granted p = false := by simp [State.granted, h]

/-- The read outstanding is the grant of its pair alone (R154). -/
theorem State.granted_iff {s : State} {e : FetchRead} (h : s.engine = some e) (p : PairId) : s.granted p = true ↔ e.pair = p := by
  simp [State.granted, h]

/-- A processor that deletes a pair is not idle. -/
theorem Proc.ne_idle_of_deleting {x : Proc} {q : PairId} (h : x.deleting = some q) : x ≠ .idle := by
  rintro rfl
  cases h

/-- A pair that is discarded is a pair that is deleted. -/
theorem Proc.deleting_of_drained {x : Proc} {q : PairId} (h : x.drained = some q) : x.deleting = some q := by
  unfold Proc.drained at h
  split at h
  · next hp => simpa [Proc.deleting, hp] using h
  · cases h

namespace State.RecordsKept

variable {x y : Option PairId} {s t : State}

/-- A change of the pairs alone, or of what the invariant does not see. -/
theorem of_pairs (h : s.RecordsKept x) (engine : t.engine = s.engine) (course : ∀ p, (t.proc p).course = (s.proc p).course)
    (acks : ∀ p, (t.requests p).countP CqRequest.isAck = (s.requests p).countP CqRequest.isAck)
    (reserved : ∀ p, s.granted p = true ∨ s.inProgress p = true → (s.pair p).reserved = true → (t.pair p).reserved = true)
    (absent : ∀ p, (t.pair p).state = .absent → (s.pair p).state ≠ .absent → s.granted p = false ∧ s.proc p = .idle)
    (draining : ∀ p, (s.proc 0).deleting = some p → (s.pair p).state = .draining → (t.pair p).state = .draining)
    (admin : (s.pair 0).state = .active → (t.pair 0).state = .active) : t.RecordsKept x := by
  have grant (p : PairId) : t.granted p = s.granted p := State.granted_of_engine engine p
  have idle (p : PairId) : t.proc p = .idle ↔ s.proc p = .idle := Proc.idle_of_course (course p)
  have progress (p : PairId) : t.inProgress p = s.inProgress p := by
    rw [Bool.eq_iff_iff, State.inProgress_iff, State.inProgress_iff, ne_eq, idle]
  have deleting : (t.proc 0).deleting = (s.proc 0).deleting := congrArg Course.deleting (course 0)
  have drained : (t.proc 0).drained = (s.proc 0).drained := congrArg Course.drained (course 0)
  refine ⟨fun p hp => ?_, fun p hp => ?_, fun p => ?_, fun p hp => ?_, fun p hp => ?_, fun p hp => ?_, admin h.admin⟩
  · rw [idle]
    exact h.granted p (by rwa [← grant])
  · rw [grant, progress] at hp
    exact reserved p hp (h.reserved p hp)
  · rw [acks, h.acks p]
    exact (congrArg Course.acks (course p)).symm
  · rw [grant, idle]
    by_cases before : (s.pair p).state = .absent
    · exact h.absent p before
    · exact absent p hp before
  · rw [deleting] at hp
    obtain ⟨work, state⟩ := h.deleting p hp
    exact ⟨work, draining p hp state⟩
  · rw [grant, idle]
    exact h.drained p (by rwa [← drained])

/-- A change that leaves the processors, the requests and the engine alone, and of the pairs the states and the reservations. -/
theorem of_same (h : s.RecordsKept x) (engine : t.engine = s.engine) (procs : t.procs = s.procs) (cqReq : t.cqReq = s.cqReq)
    (pair : ∀ p, (t.pair p).state = (s.pair p).state ∧ (t.pair p).reserved = (s.pair p).reserved) : t.RecordsKept x :=
  h.of_pairs engine (fun p => by simp only [State.proc, procs]) (fun p => by simp only [State.requests, cqReq])
    (fun p _ => (pair p).2.trans) (fun p after before => absurd ((pair p).1.symm.trans after) before)
    (fun p _ => (pair p).1.trans) (pair 0).1.trans

/-- The processor of one pair goes on, and what the pair owes and has handed is as many acks as the processor says. -/
theorem of_proc (h : s.RecordsKept x) (p : PairId) (engine : t.engine = s.engine) (pairs : t.pairs = s.pairs)
    (others : ∀ q, p ≠ q → t.proc q = s.proc q ∧ t.requests q = s.requests q ∧ (y = some q ↔ x = some q))
    (busy : s.proc p ≠ .idle ∧ t.proc p ≠ .idle)
    (acks : (t.requests p).countP CqRequest.isAck + (if y = some p then 1 else 0) = (t.proc p).acksHanded)
    (deleting : p = 0 → ∀ q, (t.proc 0).deleting = some q → q ≠ 0 ∧ (s.pair q).state = .draining)
    (drained : p = 0 → ∀ q, (t.proc 0).drained = some q → s.granted q = false ∧ s.proc q = .idle) : t.RecordsKept y := by
  have grant (q : PairId) : t.granted q = s.granted q := State.granted_of_engine engine q
  have pair (q : PairId) : t.pair q = s.pair q := by simp only [State.pair, pairs]
  have idle (q : PairId) (hq : s.proc q = .idle) : t.proc q = .idle := by
    have other : p ≠ q := fun e => busy.1 (e ▸ hq)
    rw [(others q other).1, hq]
  refine ⟨fun q hq => ?_, fun q hq => ?_, fun q => ?_, fun q hq => ?_, fun q hq => ?_, fun q hq => ?_, ?_⟩
  · exact idle q (h.granted q (by rwa [← grant]))
  · rw [pair]
    refine h.reserved q (hq.imp (by rw [grant]; exact id) fun hq => ?_)
    rw [State.inProgress_iff] at hq ⊢
    exact fun e => hq (idle q e)
  · by_cases e : p = q
    · rw [← e, acks]
    · obtain ⟨proc, requests, owed⟩ := others q e
      rw [proc, requests, ← h.acks q]
      simp only [owed]
  · rw [grant]
    obtain ⟨free, hi⟩ := h.absent q (by rwa [← pair])
    exact ⟨free, idle q hi⟩
  · rw [pair]
    by_cases e : p = 0
    · exact deleting e q hq
    · exact h.deleting q (by rwa [← (others 0 e).1])
  · rw [grant]
    obtain ⟨free, hi⟩ : s.granted q = false ∧ s.proc q = .idle := by
      by_cases e : p = 0
      · exact drained e q hq
      · exact h.drained q (by rwa [← (others 0 e).1])
    exact ⟨free, idle q hi⟩
  · rw [pair]
    exact h.admin

/-- The record that has begun is in progress and has handed no ack. -/
theorem begun {p : PairId} (h : s.RecordsKept (some p)) :
    (∃ k c, s.proc p = .busy k c .acked) ∧ (s.requests p).countP CqRequest.isAck = 0 := by
  have acks := h.acks p
  rw [if_pos rfl] at acks
  cases hp : s.proc p with
  | idle => simp [hp, Proc.acksHanded, Proc.phase] at acks
  | busy k c ph =>
    have one : (s.requests p).countP CqRequest.isAck + 1 = if some ph = some Phase.acked then 1 else 0 := by rwa [hp] at acks
    split at one
    · next e =>
      cases e
      exact ⟨⟨k, c, rfl⟩, by omega⟩
    · omega

/-- A busy processor that hands an ack it has not handed before. -/
theorem withAck (h : s.RecordsKept x) {p : PairId} {k : Byte} {c : W32} {ph : Phase} (hp : s.proc p = .busy k c ph)
    (owed : ∀ q, p ≠ q → (y = some q ↔ x = some q)) (here : y ≠ some p) (unacked : (s.requests p).countP CqRequest.isAck = 0)
    (st : Status) (d n : Nat) : (s.withAck p k c st d n).RecordsKept y := by
  have proc (q : PairId) : (s.withAck p k c st d n).proc q = if p = q then .busy k c .acked else s.proc q := s.setProc_proc p q _
  have requests (q : PairId) : (s.withAck p k c st d n).requests q =
      if p = q then s.requests p ++ [.ack ⟨k, c, st, d, n⟩] else s.requests q := s.setRequests_requests p q _
  refine h.of_proc p rfl rfl (fun q e => ⟨by rw [proc, if_neg e], by rw [requests, if_neg e], owed q e⟩)
    ⟨by rw [hp]; nofun, by rw [proc, if_pos rfl]; nofun⟩ ?_ (fun e q hq => ?_) (fun e q hq => ?_)
  · rw [requests, proc, if_pos rfl, if_pos rfl, if_neg here, List.countP_append, unacked]
    rfl
  · rw [proc, if_pos e] at hq
    cases hq
  · rw [proc, if_pos e] at hq
    cases hq

/-- The record that has begun hands its ack. -/
theorem answer {p : PairId} (h : s.RecordsKept (some p)) (st : Status) (d n : Nat) : (s.handAck p st d n).RecordsKept none := by
  obtain ⟨⟨k, c, hp⟩, acks⟩ := h.begun
  rw [State.handAck_busy s p k c _ st d n hp]
  exact h.withAck (y := none) hp (fun q e => by simp [e]) nofun acks st d n

/-- A record that has handed no ack hands it. -/
theorem ack (h : s.RecordsKept x) {p : PairId} (hp : (s.proc p).acksHanded = 0) (st : Status) (d n : Nat) :
    (s.handAck p st d n).RecordsKept x := by
  cases hx : s.proc p with
  | idle =>
    rw [State.handAck_idle s p st d n hx]
    exact h
  | busy k c ph =>
    rw [State.handAck_busy s p k c ph st d n hx]
    have acks := (h.acks p).trans hp
    refine h.withAck hx (fun q _ => Iff.rfl) (fun e => ?_) (by omega) st d n
    rw [if_pos e] at acks
    omega

/-- A busy processor goes to a phase before its ack. -/
theorem setPhase (h : s.RecordsKept x) {p : PairId} {k : Byte} {c : W32} {ph : Phase} (hp : s.proc p = .busy k c ph)
    (owed : ∀ q, p ≠ q → (none = some q ↔ x = some q)) (unacked : (s.requests p).countP CqRequest.isAck = 0) (ph' : Phase)
    (running : (Proc.busy k c ph').acksHanded = 0)
    (deleting : p = 0 → ∀ q, (Proc.busy k c ph').deleting = some q → q ≠ 0 ∧ (s.pair q).state = .draining)
    (drained : p = 0 → ∀ q, (Proc.busy k c ph').drained = some q → s.granted q = false ∧ s.proc q = .idle) :
    (s.setPhase p ph').RecordsKept none := by
  rw [State.setPhase_busy s p k c ph ph' hp]
  have proc (q : PairId) : ({ s with procs := s.procs.set p (.busy k c ph') } : State).proc q =
      if p = q then .busy k c ph' else s.proc q := s.setProc_proc p q _
  refine h.of_proc p rfl rfl (fun q e => ⟨by rw [proc, if_neg e], rfl, owed q e⟩)
    ⟨by rw [hp]; nofun, by rw [proc, if_pos rfl]; nofun⟩ ?_ (fun e q hq => ?_) (fun e q hq => ?_)
  · rw [proc, if_pos rfl, running]
    exact unacked
  · rw [proc, if_pos e] at hq
    exact deleting e q hq
  · rw [proc, if_pos e] at hq
    exact drained e q hq

end State.RecordsKept

end Sys2Proof.Machine

namespace Sys2Proof.Machine

/-! ### What every event keeps -/

/-- A DELETE_PAIR has handed no ack while it drains or discards. -/
theorem Proc.acksHanded_of_deleting {x : Proc} {q : PairId} (h : x.deleting = some q) : x.acksHanded = 0 := by
  unfold Proc.deleting at h
  split at h
  · next hp => exact Proc.acksHanded_of_phase hp nofun
  · next hp => exact Proc.acksHanded_of_phase hp nofun
  · cases h

/-- An ack of one pair and the end of another do not meet. -/
theorem State.becomeAbsent_handAck (s : State) {q : PairId} (work : q ≠ 0) (st : Status) (d n : Nat) :
    (s.becomeAbsent q).handAck 0 st d n = (s.handAck 0 st d n).becomeAbsent q := by
  have apart : (q : Nat) ≠ ((0 : PairId) : Nat) := fun e => work (Fin.ext e)
  cases hp : s.proc 0 with
  | idle => rw [State.handAck_idle s 0 st d n hp, State.handAck_idle _ 0 st d n (by rw [State.becomeAbsent_proc, hp])]
  | busy k c ph =>
    have requests : (s.becomeAbsent q).requests 0 = s.requests 0 := by rw [State.becomeAbsent_requests, if_neg work]
    rw [State.handAck_busy s 0 k c ph st d n hp, State.handAck_busy _ 0 k c ph st d n (by rw [State.becomeAbsent_proc, hp]),
      State.withAck, requests, State.becomeAbsent_eq, State.becomeAbsent_eq, State.withAck, Vector.set_comm _ _ apart]
    rfl

/-- An ack and a change of a pair do not meet. -/
theorem State.updPair_handAck (s : State) (p q : PairId) (f : Pair → Pair) (st : Status) (d n : Nat) :
    (s.updPair q f).handAck p st d n = (s.handAck p st d n).updPair q f := by
  cases hp : s.proc p with
  | idle => rw [State.handAck_idle s p st d n hp, State.handAck_idle (s.updPair q f) p st d n hp]
  | busy k c ph =>
    rw [State.handAck_busy s p k c ph st d n hp, State.handAck_busy (s.updPair q f) p k c ph st d n hp]
    rfl

@[simp] theorem State.becomeAbsent_pair (s : State) (q p : PairId) :
    (s.becomeAbsent q).pair p = if q = p then { absentPair with cause := (s.pair q).cause } else s.pair p := by
  rw [State.becomeAbsent_eq]
  exact s.updPair_pair q p fun y => { absentPair with cause := y.cause }

namespace State.RecordsKept

variable {x : Option PairId} {s t : State}

/-- What happens in another block. -/
theorem elsewhere (h : s.RecordsKept x) (same : t.ringSide = s.ringSide) : t.RecordsKept x := by
  have pair (p : PairId) : t.pair p = s.pair p := by
    have pairs : t.pairs = s.pairs := congrArg RingSide.pairs same
    simp only [State.pair, pairs]
  exact h.of_pairs (congrArg RingSide.engine same) (congrFun (congrArg RingSide.course same)) (congrFun (congrArg RingSide.acks same))
    (fun p _ => by rw [pair]; exact id) (fun p after before => absurd (pair p ▸ after) before) (fun p _ => by rw [pair]; exact id)
    (by rw [pair]; exact id)

/-- A pair for which a read is outstanding is there (R151). -/
theorem present_of_engine (h : s.RecordsKept x) {e : FetchRead} (he : s.engine = some e) : (s.pair e.pair).state ≠ .absent :=
  fun absent => by
    have granted := (State.granted_iff he _).2 rfl
    rw [(h.absent _ absent).1] at granted
    cases granted

/-- A change of one pair that leaves its state and its reservation alone. -/
theorem updPair (h : s.RecordsKept x) (p : PairId) (f : Pair → Pair) (state : (f (s.pair p)).state = (s.pair p).state)
    (reserved : (f (s.pair p)).reserved = (s.pair p).reserved) : (s.updPair p f).RecordsKept x :=
  h.of_same rfl rfl rfl fun q => by
    rw [State.updPair_pair]
    split
    · next e => exact e ▸ ⟨state, reserved⟩
    · exact ⟨rfl, rfl⟩

/-- A grant goes to an ACTIVE pair that has no record (R153, R154). -/
theorem grant (h : s.RecordsKept none) (p : PairId) (free : s.engine = none) (wants : s.wantsFetch p = true) :
    (s.grant p).RecordsKept none := by
  have ungranted (q : PairId) : s.granted q = false := State.granted_of_free free q
  obtain ⟨-, ⟨active, -⟩, -, ⟨-, idle⟩, -⟩ := (s.wantsFetch_iff p).1 wants
  have pair (q : PairId) : (s.grant p).pair q = if p = q then { s.pair p with reserved := true } else s.pair q :=
    s.updPair_pair p q fun y => { y with reserved := true }
  have state (q : PairId) : ((s.grant p).pair q).state = (s.pair q).state := by
    rw [pair]
    split
    · next e => rw [e]
    · rfl
  have granted (q : PairId) : (s.grant p).granted q = true ↔ p = q := State.granted_iff (s := s.grant p) rfl q
  refine ⟨fun q hq => ?_, fun q hq => ?_, h.acks, fun q hq => ?_, fun q hq => ?_, fun q hq => ?_, by rw [state]; exact h.admin⟩
  · obtain rfl := (granted q).1 hq
    exact idle
  · rw [pair]
    split
    · rfl
    · next other => exact h.reserved q (.inr (hq.resolve_left fun g => other ((granted q).1 g)))
  · rw [state] at hq
    exact ⟨Bool.eq_false_iff.2 fun g => by (rw [← (granted q).1 g, active] at hq; cases hq), (h.absent q hq).2⟩
  · rw [state]
    exact h.deleting q hq
  · have draining := (h.deleting q (Proc.deleting_of_drained hq)).2
    exact ⟨Bool.eq_false_iff.2 fun g => by (rw [← (granted q).1 g, active] at draining; cases draining), (h.drained q hq).2⟩

/-- A read that ends without a record gives the reservation back (R148, R163). -/
theorem endRead (h : s.RecordsKept none) (e : FetchRead) (he : s.engine = some e) : (s.endRead e.pair).RecordsKept none := by
  have idle : s.proc e.pair = .idle := h.granted e.pair ((State.granted_iff he _).2 rfl)
  have pair (q : PairId) : (s.endRead e.pair).pair q =
      if e.pair = q then { s.pair e.pair with reserved := false } else s.pair q :=
    s.updPair_pair e.pair q fun y => { y with reserved := false }
  have state (q : PairId) : ((s.endRead e.pair).pair q).state = (s.pair q).state := by
    rw [pair]
    split
    · next same => rw [same]
    · rfl
  have free (q : PairId) : (s.endRead e.pair).granted q = false := State.granted_of_free (s := s.endRead e.pair) rfl q
  refine ⟨fun q hq => absurd (free q) (by simp [hq]), fun q hq => ?_, h.acks, fun q hq => ⟨free q, (h.absent q (state q ▸ hq)).2⟩,
    fun q hq => by rw [state]; exact h.deleting q hq, fun q hq => ⟨free q, (h.drained q hq).2⟩, by rw [state]; exact h.admin⟩
  have busy : s.inProgress q = true := hq.resolve_left (by simp [free])
  rw [pair, if_neg fun same : e.pair = q => (s.inProgress_iff q).1 busy (same ▸ idle)]
  exact h.reserved q (.inr busy)

/-- The record that answers the read takes the place of the grant (R155). -/
theorem start (h : s.RecordsKept none) (e : FetchRead) (r : Record) (he : s.engine = some e) :
    (s.startRecord e.pair r).RecordsKept (some e.pair) := by
  have granted : s.granted e.pair = true := (State.granted_iff he _).2 rfl
  have idle : s.proc e.pair = .idle := h.granted e.pair granted
  have free (q : PairId) : (s.startRecord e.pair r).granted q = false := State.granted_of_free rfl q
  have state (q : PairId) : ((s.startRecord e.pair r).pair q).state = (s.pair q).state ∧
      ((s.startRecord e.pair r).pair q).reserved = (s.pair q).reserved := by
    rw [State.startRecord_pair]
    split
    · next same => exact same ▸ ⟨rfl, rfl⟩
    · exact ⟨rfl, rfl⟩
  have other {q : PairId} (hq : s.granted q = false) : e.pair ≠ q := fun same => by rw [← same, granted] at hq; cases hq
  have admin {q : PairId} (hq : (s.proc 0).deleting = some q) : e.pair ≠ 0 := fun same =>
    Proc.ne_idle_of_deleting hq (same ▸ idle)
  have procs (q : PairId) : (s.startRecord e.pair r).proc q = if e.pair = q then .busy (r.byte 0) r.cookie .acked else s.proc q :=
    s.startRecord_proc e.pair q r
  have unchanged {q : PairId} (hq : ((s.startRecord e.pair r).proc 0).deleting = some q) :
      (s.startRecord e.pair r).proc 0 = s.proc 0 := by
    rw [procs] at hq ⊢
    split at hq
    · cases hq
    · next other => rw [if_neg other]
  refine ⟨fun q hq => absurd (free q) (by simp [hq]), fun q hq => ?_, fun q => ?_, fun q hq => ?_, fun q hq => ?_, fun q hq => ?_,
    by rw [(state 0).1]; exact h.admin⟩
  · rw [(state q).2]
    have busy := (State.inProgress_iff _ q).1 (hq.resolve_left (by simp [free]))
    rw [procs] at busy
    split at busy
    · next same => exact h.reserved q (.inl (same ▸ granted))
    · exact h.reserved q (.inr ((s.inProgress_iff q).2 busy))
  · have acks := h.acks q
    rw [State.startRecord_requests, procs]
    by_cases same : e.pair = q
    · subst same
      rw [idle] at acks
      rw [if_pos rfl, if_pos rfl, show (s.requests e.pair).countP CqRequest.isAck = 0 from acks]
      rfl
    · rw [if_neg same, if_neg (by simpa using same)]
      exact acks
  · obtain ⟨ungranted, hi⟩ := h.absent q ((state q).1 ▸ hq)
    exact ⟨free q, by rw [procs, if_neg (other ungranted), hi]⟩
  · rw [(state q).1]
    exact h.deleting q (unchanged hq ▸ hq)
  · rw [unchanged (Proc.deleting_of_drained hq)] at hq
    obtain ⟨ungranted, hi⟩ := h.drained q hq
    exact ⟨free q, by rw [procs, if_neg (other ungranted), hi]⟩

/-- A pair that is created was ABSENT, and had neither a grant nor a record (R149, R151). -/
theorem create (h : s.RecordsKept x) (q : PairId) (r : Record) (absent : (s.pair q).state = .absent) :
    ((s.updPair q fun _ => Record.newPair r).queueZeros q).RecordsKept x := by
  obtain ⟨free, idle⟩ := h.absent q absent
  have pair (p : PairId) : ((s.updPair q fun _ => Record.newPair r).queueZeros q).pair p =
      if q = p then Record.newPair r else s.pair p := s.updPair_pair q p fun _ => Record.newPair r
  refine h.of_pairs rfl (fun _ => rfl) (fun _ => rfl) (fun p hp => ?_) (fun p hp before => ?_) (fun p _ hp => ?_) fun hp => ?_
  · rw [pair, if_neg fun same => by simp [← same, free, State.inProgress, idle] at hp]
    exact id
  · rw [pair] at hp
    split at hp
    · cases hp
    · exact absurd hp before
  · rw [pair, if_neg fun same => by rw [← same, absent] at hp; cases hp]
    exact hp
  · rw [pair, if_neg fun same => by rw [← same, absent] at hp; cases hp]
    exact hp

/-- A work pair that drains keeps its record (R150). -/
theorem startDrain (h : s.RecordsKept x) (q : PairId) (work : q ≠ 0) :
    (s.updPair q fun y => { y with state := .draining }).RecordsKept x := by
  refine h.of_pairs rfl (fun _ => rfl) (fun _ => rfl) (fun p _ hp => ?_) (fun p hp before => ?_) (fun p _ hp => ?_) fun hp => ?_
  · rw [State.updPair_pair]
    split
    · next same => rwa [same]
    · exact hp
  · rw [State.updPair_pair] at hp
    split at hp
    · cases hp
    · exact absurd hp before
  · rw [State.updPair_pair]
    split
    · rfl
    · exact hp
  · rwa [State.updPair_pair, if_neg work]

/-- A drained pair that is discarded has neither a grant nor a record (R151). -/
theorem discard (h : s.RecordsKept none) (q : PairId) (hq : (s.proc 0).deleting = some q) (free : s.granted q = false)
    (idle : s.proc q = .idle) : (s.startDiscard q).RecordsKept none := by
  have acks := (h.acks 0).trans (Proc.acksHanded_of_deleting hq)
  cases hp : s.proc 0 with
  | idle => exact absurd hp (Proc.ne_idle_of_deleting hq)
  | busy k c ph =>
    refine h.setPhase hp (fun _ _ => Iff.rfl) (by omega) _ rfl (fun _ p e => ?_) fun _ p e => ?_
    · cases e
      exact h.deleting q hq
    · cases e
      exact ⟨free, idle⟩

/-- A pair that becomes ABSENT has neither a grant nor a record, and no DELETE_PAIR deletes it any more (R151). -/
theorem becomeAbsent (h : s.RecordsKept x) (q : PairId) (work : q ≠ 0) (free : s.granted q = false) (idle : s.proc q = .idle)
    (past : (s.proc 0).deleting = none) : (s.becomeAbsent q).RecordsKept x := by
  refine h.of_pairs (by rw [State.becomeAbsent_eq]) (fun p => by rw [State.becomeAbsent_proc]) (fun p => ?_) (fun p hp => ?_)
    (fun p hp before => ?_) (fun p hp => ?_) fun hp => ?_
  · rw [State.becomeAbsent_requests]
    split
    · next same =>
      have acks := h.acks q
      rw [idle] at acks
      have unowed : (s.requests q).countP CqRequest.isAck = 0 := (Nat.add_eq_zero_iff.1 acks).1
      rw [← same, unowed]
      rfl
    · rfl
  · rw [State.becomeAbsent_pair, if_neg fun same => by simp [← same, free, State.inProgress, idle] at hp]
    exact id
  · rw [State.becomeAbsent_pair] at hp
    split at hp
    · next same => exact same ▸ ⟨free, idle⟩
    · exact absurd hp before
  · rw [past] at hp
    cases hp
  · rwa [State.becomeAbsent_pair, if_neg work]

/-- What DELETE_PAIR has deleted, once its ack is handed. -/
theorem deleting_of_answered (s : State) (q : PairId) (hq : (s.proc 0).deleting = some q) (st : Status) (d n : Nat) :
    ((s.handAck 0 st d n).proc 0).deleting = none := by
  cases hp : s.proc 0 with
  | idle => exact absurd hp (Proc.ne_idle_of_deleting hq)
  | busy k c ph =>
    have proc : (s.withAck 0 k c st d n).proc 0 = .busy k c .acked := s.setProc_proc 0 0 _
    rw [State.handAck_busy s 0 k c ph st d n hp, proc]
    rfl

end State.RecordsKept

end Sys2Proof.Machine

namespace Sys2Proof.Machine

namespace State.RecordsKept

variable {x : Option PairId} {s : State}

/-! ### The errors of the Ring Engine (R143, R148) -/

theorem flushCq (h : s.RecordsKept x) (p : PairId) : (s.flushCq p).RecordsKept x :=
  (h.updPair p (fun q => { q with totLost := satAdd max32 q.totLost (s.writeQ.filter fun w => w.recordOf (.cq p)).length })
    rfl rfl).of_same rfl rfl rfl fun _ => ⟨rfl, rfl⟩

/-- The ack of a QUERY whose snapshot is not made is its one ack (R184). -/
theorem dropSnapshot (h : s.RecordsKept x) : s.dropSnapshot.RecordsKept x := by
  unfold State.dropSnapshot
  split
  · next hp =>
    split
    · have dropped : ({ s with writeQ := s.writeQ.filter fun w => !w.isSnapshot } : State).RecordsKept x :=
        h.of_same rfl rfl rfl fun _ => ⟨rfl, rfl⟩
      exact dropped.ack (Proc.acksHanded_of_phase hp nofun) _ _ _
    · exact h
  · exact h

theorem setFault (h : s.RecordsKept x) (c : ErrorCause) : (s.setFault c).RecordsKept x := by
  unfold State.setFault
  split
  · exact h
  · have faulted : ({ s with fault := some c } : State).RecordsKept x := h.of_same rfl rfl rfl fun _ => ⟨rfl, rfl⟩
    exact (faulted.flushCq 0).dropSnapshot

/-- An error of a work pair leaves a DRAINING pair DRAINING, so the pair that is deleted stays DRAINING (R148). -/
theorem setCause (h : s.RecordsKept x) (p : PairId) (c : ErrorCause) (work : p ≠ 0) : (s.setCause p c).RecordsKept x := by
  unfold State.setCause
  split
  · next active _ =>
    refine State.RecordsKept.flushCq ?_ p
    refine h.of_pairs rfl (fun _ => rfl) (fun _ => rfl) (fun q _ hq => ?_) (fun q hq before => ?_) (fun q _ hq => ?_) fun hq => ?_
    · rw [State.updPair_pair]
      split
      · next same => rwa [same]
      · exact hq
    · rw [State.updPair_pair] at hq
      split at hq
      · cases hq
      · exact absurd hq before
    · have other : p ≠ q := fun same => by rw [← same, active] at hq; cases hq
      rwa [State.updPair_pair, if_neg other]
    · rwa [State.updPair_pair, if_neg work]
  · exact (h.updPair p (fun q => { q with cause := some c }) rfl rfl).flushCq p
  · exact h

/-! ### The requests that a ring takes (R156) -/

/-- When a ring takes the ack of its record, the processor is idle and no pair needs the reservation any more (R156, R168). -/
theorem acked (h : s.RecordsKept none) {p : PairId} {a : Ack} {rest : List CqRequest} (hr : s.requests p = .ack a :: rest) :
    ((s.setRequests p rest).setProc p .idle).RecordsKept none ∧ s.granted p = false ∧ s.proc p ≠ .idle := by
  have acks := h.acks p
  rw [hr, List.countP_cons_of_pos rfl] at acks
  have acked : (s.proc p).phase = some .acked := by
    by_contra other
    rw [Proc.acksHanded, if_neg other] at acks
    omega
  have unowed : rest.countP CqRequest.isAck = 0 := by
    rw [Proc.acksHanded, if_pos acked] at acks
    omega
  have busy : s.proc p ≠ .idle := fun idle => by
    rw [idle] at acked
    cases acked
  have free : s.granted p = false := by
    rw [Bool.eq_false_iff]
    exact fun g => busy (h.granted p g)
  have proc (q : PairId) : ((s.setRequests p rest).setProc p .idle).proc q = if p = q then .idle else s.proc q :=
    (s.setRequests p rest).setProc_proc p q .idle
  have requests (q : PairId) : ((s.setRequests p rest).setProc p .idle).requests q = if p = q then rest else s.requests q :=
    s.setRequests_requests p q rest
  have idle {q : PairId} (hq : s.proc q = .idle) : ((s.setRequests p rest).setProc p .idle).proc q = .idle := by
    rw [proc]
    split
    · rfl
    · exact hq
  have admin {q : PairId} (hq : (((s.setRequests p rest).setProc p .idle).proc 0).deleting = some q) :
      ((s.setRequests p rest).setProc p .idle).proc 0 = s.proc 0 := by
    rw [proc] at hq ⊢
    split at hq
    · cases hq
    · next other => rw [if_neg other]
  refine ⟨⟨fun q hq => idle (h.granted q hq), fun q hq => h.reserved q (hq.imp_right fun hq => ?_), fun q => ?_,
    fun q hq => ⟨(h.absent q hq).1, idle (h.absent q hq).2⟩, fun q hq => h.deleting q (admin hq ▸ hq), fun q hq => ?_, h.admin⟩,
    free, busy⟩
  · rw [State.inProgress_iff] at hq ⊢
    exact fun hi => hq (idle hi)
  · rw [proc, requests]
    by_cases same : p = q
    · rw [if_pos same, if_pos same, unowed]
      rfl
    · rw [if_neg same, if_neg same]
      exact h.acks q
  · rw [admin (Proc.deleting_of_drained hq)] at hq
    exact ⟨(h.drained q hq).1, idle (h.drained q hq).2⟩

/-- A pair without a grant and without a record may give its reservation back (R146). -/
theorem release (h : s.RecordsKept x) (p : PairId) (f : Pair → Pair) (state : (f (s.pair p)).state = (s.pair p).state)
    (free : s.granted p = false) (idle : s.proc p = .idle) : (s.updPair p f).RecordsKept x := by
  have states (q : PairId) : ((s.updPair p f).pair q).state = (s.pair q).state := by
    rw [State.updPair_pair]
    split
    · next same => rw [← same, state]
    · rfl
  refine h.of_pairs rfl (fun _ => rfl) (fun _ => rfl) (fun q hq => ?_) (fun q hq before => absurd (states q ▸ hq) before)
    (fun q _ hq => by rw [states]; exact hq) fun hq => by rw [states]; exact hq
  have other : p ≠ q := fun same => by simp [← same, free, State.inProgress, idle] at hq
  rw [State.updPair_pair, if_neg other]
  exact id

/-- A record that a ring accepts takes a slot and no state (R156). -/
theorem acceptCq (h : s.RecordsKept x) (p : PairId) (r : CqRequest) : (s.acceptCq p r).RecordsKept x :=
  (h.updPair p Pair.accept rfl rfl).of_same rfl rfl rfl fun _ => ⟨rfl, rfl⟩

/-- A ring takes the ack of its record (R156). -/
theorem takeAck (h : s.RecordsKept none) {p : PairId} {a : Ack} {rest : List CqRequest} (hr : s.requests p = .ack a :: rest) :
    ((s.setRequests p rest).takeAck p (.ack a)).RecordsKept none := by
  obtain ⟨taken, free, _⟩ := h.acked hr
  have idle : ((s.setRequests p rest).setProc p .idle).proc p = .idle := by rw [State.setProc_proc, if_pos rfl]
  unfold State.takeAck
  dsimp only
  split
  · exact taken
  split
  · exact taken.release p _ rfl free idle
  · exact (taken.release p Pair.unreserve rfl free idle).acceptCq p _

/-- A ring takes a report: it is no ack (R156). -/
theorem takeReport (h : s.RecordsKept none) {p : PairId} {r : CqRequest} {rest : List CqRequest} (hr : s.requests p = r :: rest)
    (report : r.isAck = false) : ((s.setRequests p rest).takeReport p r).RecordsKept none := by
  have taken : (s.setRequests p rest).RecordsKept none := by
    refine h.of_pairs rfl (fun _ => rfl) (fun q => ?_) (fun _ _ => id) (fun _ after before => absurd after before) (fun _ _ => id) id
    rw [State.setRequests_requests]
    split
    · next same => rw [← same, hr, List.countP_cons_of_neg (by simp [report])]
    · rfl
  unfold State.takeReport
  split
  · exact taken
  split
  · exact taken.updPair p _ rfl rfl
  split
  · exact taken.acceptCq p r
  · exact taken.updPair p _ rfl rfl

theorem takeRequest (h : s.RecordsKept none) {p : PairId} {r : CqRequest} {rest : List CqRequest} (hr : s.requests p = r :: rest) :
    ((s.setRequests p rest).takeRequest p r).RecordsKept none := by
  cases r with
  | ack a => exact h.takeAck hr
  | fire _ => exact h.takeReport hr rfl
  | retire _ => exact h.takeReport hr rfl

/-! ### Deleting a pair (R150, R151) -/

/-- A record that has begun goes to a phase (R168). -/
theorem proceed {p : PairId} (h : s.RecordsKept (some p)) (ph : Phase) (running : ph ≠ .acked)
    (deleting : p = 0 → ∀ k c q, (Proc.busy k c ph).deleting = some q → q ≠ 0 ∧ (s.pair q).state = .draining)
    (drained : ∀ k c, (Proc.busy k c ph).drained = none) : (s.setPhase p ph).RecordsKept none := by
  obtain ⟨⟨k, c, hp⟩, acks⟩ := h.begun
  exact h.setPhase hp (fun q other => by simp [other]) acks ph (Proc.acksHanded_of_phase rfl running) (fun e => deleting e k c)
    fun _ q hq => by rw [drained] at hq; cases hq

/-- A drained pair becomes ABSENT, and its DELETE_PAIR is answered (R151). -/
theorem delete (h : s.RecordsKept none) (q : PairId) (st : Status) (d n : Nat) (hq : (s.proc 0).deleting = some q)
    (drained : (s.proc 0).drained = some q ∨ (s.granted q = false ∧ s.proc q = .idle)) :
    ((s.becomeAbsent q).handAck 0 st d n).RecordsKept none := by
  have work := (h.deleting q hq).1
  obtain ⟨free, idle⟩ := drained.elim (h.drained q) id
  have answered := h.ack (Proc.acksHanded_of_deleting hq) st d n
  rw [State.becomeAbsent_handAck s work]
  have granted : (s.handAck 0 st d n).granted q = false := by
    rw [State.granted_of_engine (s.handAck_engine 0 st d n), free]
  have unbusy : (s.handAck 0 st d n).proc q = .idle := by
    cases hp : s.proc 0 with
    | idle => rw [State.handAck_idle s 0 st d n hp, idle]
    | busy k c ph =>
      rw [State.handAck_busy s 0 k c ph st d n hp]
      exact (s.setProc_proc 0 q (.busy k c .acked)).trans ((if_neg (Ne.symm work)).trans idle)
  exact answered.becomeAbsent q work granted unbusy (State.RecordsKept.deleting_of_answered s q hq st d n)

/-- A pair whose drain ends with live entries is DRAINING no more, and no DELETE_PAIR deletes it any more (R151). -/
theorem undrain (h : s.RecordsKept none) (q : PairId) (st : Status) (d n : Nat) (hq : (s.proc 0).deleting = some q) :
    ((s.updPair q Pair.undrained).handAck 0 st d n).RecordsKept none := by
  have work := (h.deleting q hq).1
  have answered := h.ack (Proc.acksHanded_of_deleting hq) st d n
  rw [State.updPair_handAck]
  refine answered.of_pairs rfl (fun _ => rfl) (fun _ => rfl) (fun p _ hp => ?_) (fun p hp before => ?_) (fun p hp => ?_) fun hp => ?_
  · rw [State.updPair_pair]
    split
    · next same => rwa [same]
    · exact hp
  · rw [State.updPair_pair] at hp
    split at hp
    · unfold Pair.undrained at hp
      dsimp only at hp
      split at hp <;> cases hp
    · exact absurd hp before
  · rw [State.RecordsKept.deleting_of_answered s q hq] at hp
    cases hp
  · rwa [State.updPair_pair, if_neg work]

end State.RecordsKept

/-- The indices of a completion ring that starts afresh (R144). -/
def Pair.restarted (q : Pair) : Pair :=
  { q with cqWrite := 0, cqPub := 0, cqDone := 0, reserved := false, pendLost := 0, totLost := 0 }

theorem State.restartAdminCq_pair (s : State) (p : PairId) :
    s.restartAdminCq.pair p = if 0 = p then (s.pair 0).restarted else s.pair p := s.updPair_pair 0 p Pair.restarted

/-- Every event at the Ring Engine keeps one record at a time. -/
theorem RingStep.recordsKept {m m' : Moment} (h : RingStep m m') (kept : m.2.RecordsKept m.1) : m'.2.RecordsKept m'.1 := by
  cases h with
  | elsewhere same => exact kept.elsewhere same
  | grant p free wants => exact kept.grant p free wants
  | endRead e he => exact kept.endRead e he
  | start e r he => exact kept.start e r he
  | answer p st d n => exact kept.answer st d n
  | proceed p ph plain =>
    have course (k : Byte) (c : W32) : (Proc.busy k c ph).deleting = none ∧ (Proc.busy k c ph).drained = none :=
      ⟨congrArg Course.deleting (plain k c), congrArg Course.drained (plain k c)⟩
    refine State.RecordsKept.proceed kept ph (fun acked => ?_) (fun _ k c q hq => ?_) fun k c => (course k c).2
    · have none : (Proc.busy 0 0 ph).acksHanded = 0 := congrArg Course.acks (plain 0 0)
      rw [acked] at none
      cases none
    · rw [(course k c).1] at hq
      cases hq
  | drain p q discard work draining =>
    refine State.RecordsKept.proceed kept _ nofun (fun _ k c q' hq => ?_) fun _ _ => rfl
    cases hq
    exact ⟨work, draining⟩
  | ack p st d n hp => exact kept.ack hp st d n
  | create q r absent => exact kept.create q r absent
  | startDrain q work => exact kept.startDrain q work
  | discard q hq free idle => exact kept.discard q hq free idle
  | delete q st d n hq drained => exact kept.delete q st d n hq drained
  | undrain q st d n hq => exact kept.undrain q st d n hq
  | fault c => exact kept.setFault c
  | cause p c work => exact kept.setCause p c work
  | request p q rest hr => exact kept.takeRequest hr
  | notice n =>
    refine kept.of_same ?_ ?_ ?_ fun p => ?_
    all_goals
      unfold State.takeNotification
      repeat' split
    any_goals rfl
    all_goals exact ⟨rfl, rfl⟩
  | loseRecord p => exact (kept.updPair p Pair.countStopped rfl rfl).of_same rfl rfl rfl fun _ => ⟨rfl, rfl⟩
  | publish ring v =>
    cases ring with
    | cq p => exact (kept.updPair p (fun q => { q with cqPub := v }) rfl rfl).of_same rfl rfl rfl fun _ => ⟨rfl, rfl⟩
    | nq => exact kept.of_same rfl rfl rfl fun _ => ⟨rfl, rfl⟩
  | submission p f present same =>
    refine kept.updPair p f ?_ ?_
    · rw [same]
    · rw [same]
  | @restart s f size state free idle =>
    have fresh := kept.release 0 (fun q => (f q).restarted) state free idle
    rw [← State.updPair_updPair s 0 f Pair.restarted] at fresh
    exact fresh.of_same rfl rfl rfl fun _ => ⟨rfl, rfl⟩
  | cqDone p v => exact kept.updPair p (fun q => { q with cqDone := v }) rfl rfl
  | setNotices | queueSnapshot | issue | written | endWrite | loseNotice | nqDone | failNotices =>
    exact kept.of_same rfl rfl rfl fun _ => ⟨rfl, rfl⟩

/-- The Ring Engine is as after a reset once every block is at its reset values (R166). -/
theorem State.cleared_ringSide (ts : Nat) (r : Option ResetCause) (c : ResetCause) (pins : Pins) (q : List Instr) :
    (State.cleared ts r c pins q).ringSide = State.reset.ringSide := rfl

/-- A reset clears every block, unless it is a write that comes while READY is 0 (R142, R166). -/
theorem exec_of_isReset (c : Instr) (s t : State) (hc : c.isReset = true) (h : exec c s = .next t) :
    t = s ∨ ∃ ts r cause pins, t = State.cleared ts r cause pins s.pending := by
  cases c
  case fullReset pins =>
    cases h
    exact .inr ⟨_, _, _, _, rfl⟩
  case softReset pins =>
    cases h
    unfold State.whenReady
    split
    · exact .inl rfl
    · exact .inr ⟨_, _, _, _, rfl⟩
  case registerWrite offset v =>
    cases h
    obtain ⟨rfl, bit⟩ : offset = 0x010 ∧ v.getLsbD 1 = true := by simpa [Instr.isReset] using hc
    have low : (v.truncate 32).getLsbD 1 = true := by simpa using bit
    have control : s.writeRegister 0x010 v = s.softReset s.pins := if_pos low
    unfold State.whenReady
    split
    · exact .inl rfl
    · exact .inr ⟨_, _, _, _, control⟩
  all_goals cases hc

/-- What a command that answers a next state has done at the Ring Engine: events, or a reset of all of it. -/
theorem exec_ringSide (c : Instr) (s t : State) (h : exec c s = .next t) :
    RingReach (none, s) (none, t) ∨ t.ringSide = State.reset.ringSide := by
  cases hc : c.isReset with
  | false => exact .inl (exec_ringReach c s t hc h)
  | true =>
    rcases exec_of_isReset c s t hc h with rfl | ⟨ts, r, cause, pins, rfl⟩
    · exact .inl (.refl _)
    · exact .inr (State.cleared_ringSide ..)

/-- So does a step: the queue of waiting commands is none of the Ring Engine's. -/
theorem step_ringSide (s t : State) (h : step s = .next t) : RingReach (none, s) (none, t) ∨ t.ringSide = State.reset.ringSide := by
  unfold step at h
  split at h
  · next c rest _ =>
    have popped : RingReach (none, s) (none, { s with pending := rest }) := .elsewhere rfl
    exact (exec_ringSide c _ t h).imp_left popped.trans
  · cases h
    exact .inl (.refl _)

/-- Settles O33: every event keeps one record at a time, and a reset leaves no record. -/
theorem pairsKeepOneRecordAtATime : Obligations.PairsKeepOneRecordAtATime := by
  intro s t hs h
  rw [State.oneRecord_iff] at hs ⊢
  rcases step_ringSide s t h with events | reset
  · exact events.keeps (fun m => m.2.RecordsKept m.1) (fun _ _ one => one.recordsKept) hs
  · exact ((State.oneRecord_iff _).1 State.reset_oneRecord).elsewhere reset

end Sys2Proof.Machine

namespace Sys2Proof.Machine

/-! ## The indices of a ring (R145, R146) -/

/-- How far an index lies ahead, without a division. -/
theorem ahead_eq {n d v : Nat} (hd : d < n) (hv : v < n) : ahead n d v = if d ≤ v then v - d else v + n - d := by
  unfold ahead
  split
  · next le => rw [show v + n - d = v - d + n by omega, Nat.add_mod_right, Nat.mod_eq_of_lt (by omega)]
  · exact Nat.mod_eq_of_lt (by omega)

/-- The index after one that is not the last of the round lies one further ahead. -/
theorem ahead_next {n d w : Nat} (hd : d < n) (hw : w < n) (room : ahead n d w + 1 < n) :
    ahead n d ((w + 1) % n) = ahead n d w + 1 := by
  rw [ahead_eq hd hw] at room ⊢
  by_cases last : w + 1 = n
  · rw [last, Nat.mod_self, ahead_eq hd (by omega)]
    split_ifs at room ⊢ <;> omega
  · rw [Nat.mod_eq_of_lt (by omega), ahead_eq hd (by omega)]
    split_ifs at room ⊢ <;> omega

/-- A done index that moves up by less than the distance of an index brings that index so much nearer. -/
theorem ahead_of_done {n d e v : Nat} (hd : d < n) (he : e < n) (hv : v < n) (le : ahead n d e ≤ ahead n d v) :
    ahead n e v = ahead n d v - ahead n d e := by
  rw [ahead_eq hd he, ahead_eq hd hv] at *
  rw [ahead_eq he hv]
  split_ifs at le ⊢ <;> omega

namespace RingIndices

variable {n d p w : Nat} {way : List Nat}

/-- Writes that are not made move no index. -/
theorem mono (h : RingIndices n d p w way) {way' : List Nat} (fewer : way'.Sublist way) : RingIndices n d p w way' := by
  obtain ⟨hd, hp, hw, hway, sorted⟩ := h
  exact ⟨hd, hp, hw, fun v hv => hway v (fewer.subset hv), sorted.sublist ((fewer.cons_cons p).append_right _)⟩

/-- The indices of a ring that starts empty. -/
theorem zero (size : 0 < n) : RingIndices n 0 0 0 [] := ⟨size, size, size, nofun, by simp⟩

/-- A record that is accepted moves the write tail by one and will publish it (R156). -/
theorem accept (h : RingIndices n d p w way) (room : ahead n d w + 1 < n) :
    RingIndices n d p ((w + 1) % n) (way ++ [(w + 1) % n]) := by
  obtain ⟨hd, hp, hw, hway, sorted⟩ := h
  obtain ⟨sorted, -, last⟩ := List.pairwise_append.1 sorted
  have next : (w + 1) % n < n := Nat.mod_lt _ (by omega)
  have before : ∀ v ∈ p :: way, ahead n d v ≤ ahead n d ((w + 1) % n) := fun v hv => by
    have := last v hv w (List.mem_singleton_self w)
    rw [ahead_next hd hw room]
    omega
  refine ⟨hd, hp, next, fun v hv => ?_, ?_⟩
  · rcases List.mem_append.1 hv with hv | hv
    · exact hway v hv
    · rwa [List.mem_singleton.1 hv]
  · rw [← List.cons_append, List.append_assoc, List.pairwise_append]
    exact ⟨sorted, by simp, fun v hv u hu => by
      obtain rfl : u = (w + 1) % n := by simpa using hu
      exact before v hv⟩

/-- The tail that is next on its way is published (R146). -/
theorem publish {v : Nat} (h : RingIndices n d p w (v :: way)) : RingIndices n d v w way := by
  obtain ⟨hd, -, hw, hway, sorted⟩ := h
  exact ⟨hd, hway v List.mem_cons_self, hw, fun u hu => hway u (List.mem_cons_of_mem v hu), (List.pairwise_cons.1 sorted).2⟩

/-- The done index moves up to no further than the published tail (R162). -/
theorem done {v : Nat} (h : RingIndices n d p w way) (span : inSpan n d p v = true) : RingIndices n v p w way := by
  obtain ⟨hd, hp, hw, hway, sorted⟩ := h
  obtain ⟨hv, le⟩ : v < n ∧ ahead n d v ≤ ahead n d p := by simpa [inSpan, ahead] using span
  refine ⟨hv, hp, hw, hway, sorted.imp_of_mem fun {a b} ha hb ab => ?_⟩
  have further : ∀ u ∈ (p :: way) ++ [w], u < n ∧ ahead n d v ≤ ahead n d u := fun u hu => by
    rcases List.mem_cons.1 (List.cons_append ▸ hu) with rfl | tail
    · exact ⟨hp, le⟩
    · refine ⟨?_, le.trans ((List.pairwise_cons.1 sorted).1 u tail)⟩
      rcases List.mem_append.1 tail with on | last
      · exact hway u on
      · rwa [List.mem_singleton.1 last]
  rw [ahead_of_done hd hv (further a ha).1 (further a ha).2, ahead_of_done hd hv (further b hb).1 (further b hb).2]
  exact Nat.sub_le_sub_right ab _

/-- The write tail comes nearer to a done index that moves up (R162). -/
theorem unconsumed_of_done {v : Nat} (h : RingIndices n d p w way) (span : inSpan n d p v = true) : ahead n v w ≤ ahead n d w := by
  obtain ⟨hd, hp, hw, -, sorted⟩ := h
  obtain ⟨hv, le⟩ : v < n ∧ ahead n d v ≤ ahead n d p := by simpa [inSpan, ahead] using span
  have reach := (List.pairwise_cons.1 sorted).1 w (List.mem_append_right _ (List.mem_singleton_self w))
  rw [ahead_of_done hd hv hw (le.trans reach)]
  exact Nat.sub_le _ _

end RingIndices

/-- A size that a ring may have is not 0 (R145). -/
theorem pos_of_ringSize {n : Nat} (h : ringSize n = true) : 0 < n := by
  rw [ringSize, List.contains_iff_mem] at h
  refine Nat.pos_of_ne_zero fun zero => ?_
  rw [zero] at h
  simp at h

/-! ### The invariant of one ring -/

/-- The invariant of a pair's completion ring, with the tails on their way to it. -/
structure Pair.InOrder (q : Pair) (way : List Nat) : Prop where
  indices : q.state ≠ .absent → RingIndices q.cqSize q.cqDone q.cqPub q.cqWrite way
  room : q.state ≠ .absent → q.unconsumed + q.reservedSlots ≤ q.cqSize - 1
  absent : q.state = .absent → q = { absentPair with cause := q.cause } ∧ way = []

/-- The invariant of the notice ring, with the tails on their way to it. -/
structure NoticeRing.InOrder (q : NoticeRing) (way : List Nat) : Prop where
  indices : q.state ≠ .unset → RingIndices q.size q.done q.pub q.write way
  unset : q.state = .unset → q = blankRing ∧ way = []

/-- The rings are in order one by one. -/
theorem State.ringsInOrder_iff (s : State) :
    s.RingsInOrder ↔ (∀ p, (s.pair p).InOrder (s.onTheWay (.cq p))) ∧ s.nq.InOrder (s.onTheWay .nq) :=
  ⟨fun ⟨present, absent, set, unset⟩ => ⟨fun p => ⟨fun hp => (present p hp).1, fun hp => (present p hp).2, absent p⟩, set, unset⟩,
    fun ⟨pairs, notices⟩ => ⟨fun p hp => ⟨(pairs p).indices hp, (pairs p).room hp⟩, fun p => (pairs p).absent, notices.indices,
      notices.unset⟩⟩

namespace Pair.InOrder

variable {q q' : Pair} {way way' : List Nat}

theorem mono (h : q.InOrder way) (fewer : way'.Sublist way) : q.InOrder way' :=
  ⟨fun hq => (h.indices hq).mono fewer, h.room, fun hq => ⟨(h.absent hq).1, by
    rw [(h.absent hq).2] at fewer
    exact List.sublist_nil.1 fewer⟩⟩

/-- A ring to which a tail is on its way is there. -/
theorem present {v : Nat} (h : q.InOrder way) (hv : v ∈ way) : q.state ≠ .absent := fun absent => by
  rw [(h.absent absent).2] at hv
  cases hv

/-- A ring whose indices stay, and which reserves no further slot. -/
theorem touch (h : q.InOrder way) (present : q.state ≠ .absent) (present' : q'.state ≠ .absent) (size : q'.cqSize = q.cqSize)
    (done : q'.cqDone = q.cqDone) (pub : q'.cqPub = q.cqPub) (write : q'.cqWrite = q.cqWrite)
    (reserved : q'.reserved = true → q.reserved = true) : q'.InOrder way := by
  refine ⟨fun _ => ?_, fun _ => ?_, fun absent => absurd absent present'⟩
  · rw [size, done, pub, write]
    exact h.indices present
  · have fewer : q'.reservedSlots ≤ q.reservedSlots := by
      unfold Pair.reservedSlots
      split
      · next hr => rw [if_pos (reserved hr)]
      · exact Nat.zero_le _
    have room := h.room present
    rw [Pair.unconsumed, size, done, write]
    rw [Pair.unconsumed] at room
    omega

/-- A slot that is free may be reserved (R154). -/
theorem reserve (h : q.InOrder way) (present : q.state ≠ .absent) (free : 1 ≤ q.free) :
    ({ q with reserved := true } : Pair).InOrder way := by
  refine ⟨fun _ => h.indices present, fun _ => ?_, fun absent => absurd absent present⟩
  have unconsumed : ({ q with reserved := true } : Pair).unconsumed = q.unconsumed := rfl
  rw [unconsumed, Pair.reservedSlots, if_pos rfl]
  unfold Pair.free at free
  dsimp only
  omega

/-- A ring accepts a record into a slot that is free and not reserved (R156). -/
theorem accept (h : q.InOrder way) (present : q.state ≠ .absent) (free : q.unconsumed + q.reservedSlots + 1 ≤ q.cqSize - 1) :
    q.accept.InOrder (way ++ [(q.cqWrite + 1) % q.cqSize]) := by
  have indices := h.indices present
  have next : q.accept.unconsumed = q.unconsumed + 1 :=
    ahead_next indices.1 indices.2.2.1 (show q.unconsumed + 1 < q.cqSize by omega)
  refine ⟨fun _ => indices.accept (show q.unconsumed + 1 < q.cqSize by omega), fun _ => ?_, fun absent => absurd absent present⟩
  rw [next]
  change q.unconsumed + 1 + q.reservedSlots ≤ q.cqSize - 1
  omega

theorem publish {v : Nat} (h : q.InOrder (v :: way)) : ({ q with cqPub := v } : Pair).InOrder way :=
  have present := h.present List.mem_cons_self
  ⟨fun _ => (h.indices present).publish, fun _ => h.room present, fun absent => absurd absent present⟩

theorem done {v : Nat} (h : q.InOrder way) (present : q.state ≠ .absent) (span : inSpan q.cqSize q.cqDone q.cqPub v = true) :
    ({ q with cqDone := v } : Pair).InOrder way :=
  ⟨fun _ => (h.indices present).done span,
    fun _ => (Nat.add_le_add_right ((h.indices present).unconsumed_of_done span) _).trans (h.room present),
    fun absent => absurd absent present⟩

/-- A ring that starts empty, with a size. -/
theorem fresh (present : q.state ≠ .absent) (size : 0 < q.cqSize) (done : q.cqDone = 0) (pub : q.cqPub = 0) (write : q.cqWrite = 0)
    (reserved : q.reserved = false) : q.InOrder [] := by
  refine ⟨fun _ => ?_, fun _ => ?_, fun absent => absurd absent present⟩
  · rw [done, pub, write]
    exact .zero size
  · rw [Pair.unconsumed, Pair.reservedSlots, done, write, reserved]
    simp

end Pair.InOrder

namespace NoticeRing.InOrder

variable {q q' : NoticeRing} {way way' : List Nat}

theorem mono (h : q.InOrder way) (fewer : way'.Sublist way) : q.InOrder way' :=
  ⟨fun hq => (h.indices hq).mono fewer, fun hq => ⟨(h.unset hq).1, by
    rw [(h.unset hq).2] at fewer
    exact List.sublist_nil.1 fewer⟩⟩

/-- A ring that is set up and whose indices stay. -/
theorem touch (h : q.InOrder way) (set : q.state ≠ .unset) (set' : q'.state ≠ .unset) (size : q'.size = q.size)
    (done : q'.done = q.done) (pub : q'.pub = q.pub) (write : q'.write = q.write) : q'.InOrder way := by
  refine ⟨fun _ => ?_, fun unset => absurd unset set'⟩
  rw [size, done, pub, write]
  exact h.indices set

end NoticeRing.InOrder

/-! ### The tails on their way -/

/-- The tail that the answer to a write publishes, if it is a tail write of this ring's that publishes. -/
def QueuedWrite.tailOf (ring : RingId) : QueuedWrite → Option Nat
  | .tail r v true => if r = ring then some v else none
  | _ => none

/-- The tail that follows a record of this ring's. -/
def QueuedWrite.nextOf (ring : RingId) : QueuedWrite → Option Nat
  | .record r _ next _ => if r = ring then some next else none
  | _ => none

/-- The tails that these writes will publish. -/
def wayOf (ring : RingId) (ws : List QueuedWrite) : List Nat := ws.filterMap (·.tailOf ring) ++ ws.filterMap (·.nextOf ring)

/-- The write on the bus, unless its ring is gone. -/
def State.busMover (s : State) : List QueuedWrite :=
  match s.onBus with
  | some b => if b.stale then [] else [b.write]
  | none => []

/-- The writes whose answers move an index. -/
def State.movers (s : State) : List QueuedWrite := s.busMover ++ s.writeQ

theorem wayOf_sublist {ws' ws : List QueuedWrite} (ring : RingId) (fewer : ws'.Sublist ws) : (wayOf ring ws').Sublist (wayOf ring ws) :=
  (fewer.filterMap _).append (fewer.filterMap _)

/-- A write that carries no tail of the ring adds none. -/
theorem wayOf_append {ring : RingId} {more : List QueuedWrite} (ws : List QueuedWrite)
    (still : ∀ w ∈ more, w.tailOf ring = none ∧ w.nextOf ring = none) : wayOf ring (ws ++ more) = wayOf ring ws := by
  simp only [wayOf, List.filterMap_append, List.filterMap_eq_nil_iff.2 fun w hw => (still w hw).1,
    List.filterMap_eq_nil_iff.2 fun w hw => (still w hw).2, List.append_nil]

/-- Writes that carry no tail of a ring publish none. -/
theorem wayOf_eq_nil {ring : RingId} {ws : List QueuedWrite} (still : ∀ w ∈ ws, w.tailOf ring = none ∧ w.nextOf ring = none) :
    wayOf ring ws = [] := wayOf_append [] still

/-- A record that is accepted adds its tail as the last of its ring's (R159). -/
theorem wayOf_append_record (ring r : RingId) (slot next : Nat) (data : List Byte) (ws : List QueuedWrite) :
    wayOf ring (ws ++ [.record r slot next data]) = if r = ring then wayOf ring ws ++ [next] else wayOf ring ws := by
  split <;> simp [wayOf, QueuedWrite.tailOf, QueuedWrite.nextOf, *]

/-- The tail write that follows a record on the bus carries the tail that the record had on its way (R159). -/
theorem wayOf_record_cons (ring r : RingId) (slot next : Nat) (data : List Byte) (ws : List QueuedWrite) :
    wayOf ring (ws ++ [.tail r next true]) = wayOf ring (.record r slot next data :: ws) := by
  by_cases h : r = ring <;> simp [wayOf, QueuedWrite.tailOf, QueuedWrite.nextOf, h]

/-- The tail write on the bus carries the tail that is next. -/
theorem wayOf_tail_cons (ring r : RingId) (v : Nat) (ws : List QueuedWrite) :
    wayOf ring (.tail r v true :: ws) = if r = ring then v :: wayOf ring ws else wayOf ring ws := by
  split <;> simp [wayOf, QueuedWrite.tailOf, QueuedWrite.nextOf, *]

/-- With the write on the bus made stale for a gone ring, it moves an index no more. -/
theorem State.busMover_staleWhen (s : State) (gone : QueuedWrite → Bool) :
    (s.staleWhen gone).busMover = s.busMover.filter fun w => !gone w := by
  unfold State.busMover State.staleWhen
  cases s.onBus with
  | none => rfl
  | some b => cases hs : b.stale <;> cases hg : gone b.write <;> simp [hs, hg]

end Sys2Proof.Machine

namespace Sys2Proof.Machine

/-! ### What every event does to the rings -/

/-- The tails on their way to each ring. -/
def State.ways (s : State) (ring : RingId) : List Nat := wayOf ring s.movers

/-- They are the model's. -/
theorem State.onTheWay_eq_ways (s : State) (ring : RingId) : s.onTheWay ring = s.ways ring := rfl

/-- Every ring is in order. -/
structure State.RingsKept (s : State) : Prop where
  pairs : ∀ p, (s.pair p).InOrder (s.ways (.cq p))
  notices : s.nq.InOrder (s.ways .nq)

theorem State.ringsInOrder_iff_kept (s : State) : s.RingsInOrder ↔ s.RingsKept := by
  simp only [s.ringsInOrder_iff, State.onTheWay_eq_ways]
  exact ⟨fun ⟨pairs, notices⟩ => ⟨pairs, notices⟩, fun ⟨pairs, notices⟩ => ⟨pairs, notices⟩⟩

theorem State.ways_of_same {s t : State} (onBus : t.onBus = s.onBus) (writeQ : t.writeQ = s.writeQ) (ring : RingId) :
    t.ways ring = s.ways ring := by
  simp only [State.ways, State.movers, State.busMover, onBus, writeQ]

/-- Writes that wait and are not made publish no tail (R148). -/
theorem State.ways_filter {s t : State} (f : QueuedWrite → Bool) (onBus : t.onBus = s.onBus) (writeQ : t.writeQ = s.writeQ.filter f)
    (ring : RingId) : (t.ways ring).Sublist (s.ways ring) := by
  refine wayOf_sublist ring ?_
  simp only [State.movers, State.busMover, onBus, writeQ]
  exact List.filter_sublist.append_left _

/-- Writes that carry no tail publish none. -/
theorem State.ways_append (s t : State) (more : List QueuedWrite) (onBus : t.onBus = s.onBus) (writeQ : t.writeQ = s.writeQ ++ more)
    (still : ∀ ring, ∀ w ∈ more, w.tailOf ring = none ∧ w.nextOf ring = none) (ring : RingId) : t.ways ring = s.ways ring := by
  rw [State.ways, State.ways, ← wayOf_append s.movers (still ring)]
  simp only [State.movers, State.busMover, onBus, writeQ, List.append_assoc]

/-- The two zeros of the status block carry no tail that is published (R147). -/
theorem State.queueZeros_ways (s : State) (q : PairId) (ring : RingId) : (s.queueZeros q).ways ring = s.ways ring :=
  State.ways_append s (s.queueZeros q) [.head q 0, .tail (.cq q) 0 false] rfl rfl
    (fun _ => by simp [QueuedWrite.tailOf, QueuedWrite.nextOf]) ring

/-- A write that is answered is on its way no more. -/
theorem State.endWrite_ways (s : State) (ring : RingId) : (s.endWrite.ways ring).Sublist (s.ways ring) :=
  wayOf_sublist ring (List.sublist_append_right s.busMover s.writeQ)

/-- The writes for a ring that is gone are discarded, and the one on the bus moves no index. -/
theorem State.movers_gone {s t : State} (gone : QueuedWrite → Bool) (onBus : t.onBus = (s.staleWhen gone).onBus)
    (writeQ : t.writeQ = s.writeQ.filter fun w => !gone w) : t.movers = s.movers.filter fun w => !gone w := by
  have bus : t.busMover = (s.staleWhen gone).busMover := by simp only [State.busMover, onBus]
  rw [State.movers, State.movers, List.filter_append, bus, State.busMover_staleWhen, writeQ]

/-- A write that is not of a completion ring's carries no tail of it. -/
theorem QueuedWrite.still_of_not_ofCq {w : QueuedWrite} {p : PairId} (h : w.ofCq p = false) :
    w.tailOf (.cq p) = none ∧ w.nextOf (.cq p) = none := by
  match w with
  | .record r _ _ _ => exact ⟨rfl, if_neg (by simpa [QueuedWrite.ofCq] using h)⟩
  | .tail r _ true => exact ⟨if_neg (by simpa [QueuedWrite.ofCq] using h), rfl⟩
  | .tail _ _ false | .head _ _ | .snapshot _ _ => exact ⟨rfl, rfl⟩

/-- A write that is not of the notice ring's carries no tail of it. -/
theorem QueuedWrite.still_of_not_ofNotices {w : QueuedWrite} (h : w.ofNotices = false) : w.tailOf .nq = none ∧ w.nextOf .nq = none := by
  match w with
  | .record r _ _ _ => exact ⟨rfl, if_neg (by simpa [QueuedWrite.ofNotices] using h)⟩
  | .tail r _ true => exact ⟨if_neg (by simpa [QueuedWrite.ofNotices] using h), rfl⟩
  | .tail _ _ false | .head _ _ | .snapshot _ _ => exact ⟨rfl, rfl⟩

/-- A write that waits while the notice ring is set up anew publishes no tail of the new one (R152). -/
theorem QueuedWrite.unpublished_still {w : QueuedWrite} (h : w.recordOf .nq = false) :
    w.unpublished.tailOf .nq = none ∧ w.unpublished.nextOf .nq = none := by
  match w with
  | .record r _ _ _ => exact ⟨rfl, if_neg (by simpa [QueuedWrite.recordOf] using h)⟩
  | .tail (.cq _) _ true | .tail (.cq _) _ false | .tail .nq _ _ | .head _ _ | .snapshot _ _ => exact ⟨rfl, rfl⟩

/-- It carries what it carried for a completion ring. -/
theorem QueuedWrite.unpublished_cq (p : PairId) (w : QueuedWrite) :
    w.unpublished.tailOf (.cq p) = w.tailOf (.cq p) ∧ w.unpublished.nextOf (.cq p) = w.nextOf (.cq p) := by
  match w with
  | .tail .nq _ true | .tail .nq _ false | .tail (.cq _) _ _ | .record _ _ _ _ | .head _ _ | .snapshot _ _ => exact ⟨rfl, rfl⟩

theorem wayOf_unpublished (p : PairId) (us ws : List QueuedWrite) :
    wayOf (.cq p) (us ++ ws.map QueuedWrite.unpublished) = wayOf (.cq p) (us ++ ws) := by
  have tail : (QueuedWrite.tailOf (.cq p)) ∘ QueuedWrite.unpublished = QueuedWrite.tailOf (.cq p) :=
    funext fun w => (w.unpublished_cq p).1
  have next : (QueuedWrite.nextOf (.cq p)) ∘ QueuedWrite.unpublished = QueuedWrite.nextOf (.cq p) :=
    funext fun w => (w.unpublished_cq p).2
  simp only [wayOf, List.filterMap_append, List.filterMap_map, tail, next]

/-- The answer to a write that carries no tail, or whose ring is gone, takes no tail from those on their way. -/
theorem State.ways_of_bus {s : State} {b : BusWrite} (h : s.onBus = some b) (live : b.stale = false) (ring : RingId) :
    s.ways ring = wayOf ring (b.write :: s.writeQ) := by
  simp [State.ways, State.movers, State.busMover, h, live]

namespace State.RingsKept

variable {s t : State}

/-- A change of no ring, at which no tail is added to those on their way. -/
theorem of_same (h : s.RingsKept) (pairs : t.pairs = s.pairs) (nq : t.nq = s.nq)
    (ways : ∀ ring, (t.ways ring).Sublist (s.ways ring)) : t.RingsKept := by
  refine ⟨fun p => ?_, ?_⟩
  · have pair : t.pair p = s.pair p := by simp only [State.pair, pairs]
    rw [pair]
    exact (h.pairs p).mono (ways _)
  · rw [nq]
    exact h.notices.mono (ways _)

/-- A change of one pair's ring and of its tails on their way. -/
theorem of_pair (h : s.RingsKept) (p : PairId) (pair : ∀ q, t.pair q = if p = q then t.pair p else s.pair q) (nq : t.nq = s.nq)
    (ways : ∀ ring ≠ .cq p, (t.ways ring).Sublist (s.ways ring)) (ring : (t.pair p).InOrder (t.ways (.cq p))) : t.RingsKept := by
  refine ⟨fun q => ?_, ?_⟩
  · rw [pair]
    split
    · next same => exact same ▸ ring
    · next other => exact (h.pairs q).mono (ways _ fun e => other (RingId.cq.inj e).symm)
  · rw [nq]
    exact h.notices.mono (ways _ nofun)

/-- A change of the notice ring and of its tails on their way. -/
theorem of_notices (h : s.RingsKept) (pairs : t.pairs = s.pairs) (ways : ∀ p, (t.ways (.cq p)).Sublist (s.ways (.cq p)))
    (ring : t.nq.InOrder (t.ways .nq)) : t.RingsKept := by
  refine ⟨fun p => ?_, ring⟩
  have pair : t.pair p = s.pair p := by simp only [State.pair, pairs]
  rw [pair]
  exact (h.pairs p).mono (ways p)

/-- A change of one pair, the writes and the notice ring being as they were. -/
theorem updPair (h : s.RingsKept) (p : PairId) (f : Pair → Pair) (ring : (f (s.pair p)).InOrder (s.ways (.cq p))) :
    (s.updPair p f).RingsKept := by
  refine h.of_pair p (fun q => ?_) rfl (fun _ _ => .refl _) ?_
  · rw [State.updPair_pair, State.updPair_pair, if_pos rfl]
  · rwa [State.updPair_pair, if_pos rfl]

/-- A change of a pair that is there, and of what its indices and its reservation are not. -/
theorem touch (h : s.RingsKept) (p : PairId) (f : Pair → Pair) (present : (s.pair p).state ≠ .absent)
    (present' : (f (s.pair p)).state ≠ .absent) (size : (f (s.pair p)).cqSize = (s.pair p).cqSize)
    (done : (f (s.pair p)).cqDone = (s.pair p).cqDone) (pub : (f (s.pair p)).cqPub = (s.pair p).cqPub)
    (write : (f (s.pair p)).cqWrite = (s.pair p).cqWrite) (reserved : (f (s.pair p)).reserved = true → (s.pair p).reserved = true) :
    (s.updPair p f).RingsKept :=
  h.updPair p f ((h.pairs p).touch present present' size done pub write reserved)

/-- What an ack changes is no ring. -/
theorem handAck (h : s.RingsKept) (p : PairId) (st : Status) (d n : Nat) : (s.handAck p st d n).RingsKept :=
  h.of_same (by simp) (by simp) fun ring => by rw [State.ways_of_same (s := s) (by simp) (by simp)]

/-- The phase of a record is no ring's. -/
theorem setPhase (h : s.RingsKept) (p : PairId) (ph : Phase) : (s.setPhase p ph).RingsKept :=
  h.of_same (by simp) (by simp) fun ring => by rw [State.ways_of_same (s := s) (by simp) (by simp)]

/-! ### Errors -/

/-- The records that wait are not written, and their tails are not published (R148). -/
theorem flushCq (h : s.RingsKept) (p : PairId) (present : (s.pair p).state ≠ .absent) : (s.flushCq p).RingsKept :=
  (h.touch p (fun q => { q with totLost := satAdd max32 q.totLost (s.writeQ.filter fun w => w.recordOf (.cq p)).length })
    present present rfl rfl rfl rfl id).of_same rfl rfl (State.ways_filter _ rfl rfl)

theorem dropSnapshot (h : s.RingsKept) : s.dropSnapshot.RingsKept := by
  unfold State.dropSnapshot
  split
  · split
    · have dropped : ({ s with writeQ := s.writeQ.filter fun w => !w.isSnapshot } : State).RingsKept :=
        h.of_same rfl rfl (State.ways_filter _ rfl rfl)
      exact dropped.handAck _ _ _ _
    · exact h
  · exact h

theorem setFault (h : s.RingsKept) (c : ErrorCause) (admin : (s.pair 0).state = .active) : (s.setFault c).RingsKept := by
  unfold State.setFault
  split
  · exact h
  · have faulted : ({ s with fault := some c } : State).RingsKept := h.of_same rfl rfl fun _ => .refl _
    exact (faulted.flushCq 0 (fun absent => by cases admin.symm.trans absent)).dropSnapshot

theorem setCause (h : s.RingsKept) (p : PairId) (c : ErrorCause) : (s.setCause p c).RingsKept := by
  unfold State.setCause
  split
  · next active _ =>
    have present : (s.pair p).state ≠ .absent := by rw [active]; nofun
    refine State.RingsKept.flushCq ?_ p ?_
    · exact h.touch p (fun q => { q with state := .error, cause := some c }) present nofun rfl rfl rfl rfl id
    · rw [State.updPair_pair, if_pos rfl]
      nofun
  · next draining _ =>
    have present : (s.pair p).state ≠ .absent := by rw [draining]; nofun
    refine State.RingsKept.flushCq ?_ p ?_
    · exact h.touch p (fun q => { q with cause := some c }) present present rfl rfl rfl rfl id
    · rw [State.updPair_pair, if_pos rfl]
      exact present
  · exact h

/-- The notice ring enters ERROR, and the notices that wait are not written (R162). -/
theorem failNotices (h : s.RingsKept) (set : s.nq.state ≠ .unset) : s.failNoticeRing.RingsKept :=
  have ways (ring : RingId) : (s.failNoticeRing.ways ring).Sublist (s.ways ring) :=
    State.ways_filter (s := s) (t := s.failNoticeRing) (fun w => !w.recordOf .nq) rfl rfl ring
  have failed : s.failNoticeRing.nq.state ≠ .unset := nofun
  h.of_notices rfl (fun _ => ways _) ((h.notices.touch set failed rfl rfl rfl rfl).mono (ways _))

/-! ### Posting (R156, R157) -/

/-- A ring accepts a record into a slot that is free and not reserved (R156). -/
theorem acceptCq (h : s.RingsKept) (p : PairId) (r : CqRequest) (present : (s.pair p).state ≠ .absent)
    (free : (s.pair p).unconsumed + (s.pair p).reservedSlots + 1 ≤ (s.pair p).cqSize - 1) : (s.acceptCq p r).RingsKept := by
  have way (ring : RingId) : (s.acceptCq p r).ways ring =
      if .cq p = ring then s.ways ring ++ [((s.pair p).cqWrite + 1) % (s.pair p).cqSize] else s.ways ring := by
    rw [State.ways, State.ways, ← wayOf_append_record ring (.cq p), State.movers, State.movers, List.append_assoc]
    rfl
  have pair (q : PairId) : (s.acceptCq p r).pair q = if p = q then (s.pair p).accept else s.pair q := s.updPair_pair p q Pair.accept
  refine h.of_pair p (fun q => by rw [pair, pair, if_pos rfl]) rfl (fun ring other => ?_) ?_
  · rw [way, if_neg (Ne.symm other)]
  · rw [way, if_pos rfl, pair, if_pos rfl]
    exact (h.pairs p).accept present free

/-- The ack of a record takes the slot that was reserved for it (R156). -/
theorem takeAck (h : s.RingsKept) (kept : s.RecordsKept none) {p : PairId} {a : Ack} {rest : List CqRequest}
    (hr : s.requests p = .ack a :: rest) : ((s.setRequests p rest).takeAck p (.ack a)).RingsKept := by
  obtain ⟨-, -, busy⟩ := kept.acked hr
  have reserved := kept.reserved p (.inr ((s.inProgress_iff p).2 busy))
  have taken : ((s.setRequests p rest).setProc p .idle).RingsKept := h.of_same rfl rfl fun _ => .refl _
  unfold State.takeAck
  dsimp only
  split
  · exact taken
  next present =>
  split
  · exact taken.touch p _ present present rfl rfl rfl rfl nofun
  · have freed : (((s.setRequests p rest).setProc p .idle).updPair p Pair.unreserve).RingsKept :=
      taken.touch p Pair.unreserve present present rfl rfl rfl rfl nofun
    refine freed.acceptCq p _ ?_ ?_
    · rw [State.updPair_pair, if_pos rfl]
      exact present
    · rw [State.updPair_pair, if_pos rfl]
      have room := (h.pairs p).room present
      rw [Pair.reservedSlots, if_pos reserved] at room
      exact room

/-- A report takes a slot that is free, or is lost (R156). -/
theorem takeReport (h : s.RingsKept) (p : PairId) (r : CqRequest) : (s.takeReport p r).RingsKept := by
  unfold State.takeReport
  split
  · exact h
  next present =>
  split
  · exact h.touch p Pair.countStopped present present rfl rfl rfl rfl id
  split
  · next free =>
    unfold Pair.free at free
    exact h.acceptCq p r present (by omega)
  · exact h.touch p Pair.loseReport present present rfl rfl rfl rfl id

theorem takeRequest (h : s.RingsKept) (kept : s.RecordsKept none) {p : PairId} {r : CqRequest} {rest : List CqRequest}
    (hr : s.requests p = r :: rest) : ((s.setRequests p rest).takeRequest p r).RingsKept := by
  have taken : (s.setRequests p rest).RingsKept := h.of_same rfl rfl fun _ => .refl _
  cases r with
  | ack a => exact h.takeAck kept hr
  | fire _ => exact taken.takeReport p _
  | retire _ => exact taken.takeReport p _

/-- The notice ring takes a notice into a free slot, or loses it (R157). -/
theorem takeNotification (h : s.RingsKept) (n : Notice) : (s.takeNotification n).RingsKept := by
  unfold State.takeNotification
  split
  · exact h
  · next error =>
    exact h.of_notices rfl (fun _ => .refl _) (h.notices.touch (by simp [error]) (by simp [error]) rfl rfl rfl rfl)
  · next active =>
    have set : s.nq.state ≠ .unset := by simp [active]
    split
    · next free =>
      have indices := h.notices.indices set
      have room : ahead s.nq.size s.nq.done s.nq.write + 1 < s.nq.size := by
        change 1 ≤ s.nq.size - 1 - ahead s.nq.size s.nq.done s.nq.write at free
        omega
      have way (ring : RingId) : (s.acceptNotice n).ways ring =
          if .nq = ring then s.ways ring ++ [(s.nq.write + 1) % s.nq.size] else s.ways ring := by
        rw [State.ways, State.ways, ← wayOf_append_record ring .nq, State.movers, State.movers, List.append_assoc]
        rfl
      refine h.of_notices rfl (fun p => by rw [way, if_neg nofun]) ⟨fun _ => ?_, fun unset => absurd unset set⟩
      rw [way, if_pos rfl]
      exact indices.accept room
    · exact h.of_notices rfl (fun _ => .refl _) (h.notices.touch set set rfl rfl rfl rfl)

/-! ### The write engine (R159) -/

/-- The bus takes the oldest write. -/
theorem issue (h : s.RingsKept) {w : QueuedWrite} {rest : List QueuedWrite} (free : s.onBus = none) (hw : s.writeQ = w :: rest) :
    ({ s with writeQ := rest, onBus := some ⟨w, s.writeAddr w, false⟩ } : State).RingsKept := by
  refine h.of_same rfl rfl fun ring => ?_
  simp [State.ways, State.movers, State.busMover, free, hw]

/-- The tail of a record that is written is queued, and stays on its way. -/
theorem written (h : s.RingsKept) {ring : RingId} {slot next : Nat} {data : List Byte} {addr : W64}
    (hb : s.onBus = some ⟨.record ring slot next data, addr, false⟩) :
    ({ s.endWrite with writeQ := s.writeQ ++ [.tail ring next true] } : State).RingsKept := by
  refine h.of_same rfl rfl fun r => ?_
  have queued : ({ s.endWrite with writeQ := s.writeQ ++ [.tail ring next true] } : State).ways r =
      wayOf r (s.writeQ ++ [.tail ring next true]) := rfl
  rw [State.ways_of_bus hb rfl, queued, wayOf_record_cons r ring slot next data]

theorem endWrite (h : s.RingsKept) : s.endWrite.RingsKept := h.of_same rfl rfl s.endWrite_ways

/-- The published tail takes the value that is next on its way (R146). -/
theorem publish (h : s.RingsKept) {ring : RingId} {v : Nat} {addr : W64} (hb : s.onBus = some ⟨.tail ring v true, addr, false⟩) :
    (s.endWrite.publish ring v).RingsKept := by
  have way (r : RingId) : s.ways r = if ring = r then v :: s.endWrite.ways r else s.endWrite.ways r := by
    rw [State.ways_of_bus hb rfl, wayOf_tail_cons]
    rfl
  cases ring with
  | cq p =>
    have pair (q : PairId) : (s.endWrite.publish (.cq p) v).pair q = if p = q then { s.pair p with cqPub := v } else s.pair q :=
      s.endWrite.updPair_pair p q fun q => { q with cqPub := v }
    refine h.of_pair p (fun q => by rw [pair, pair, if_pos rfl]) rfl (fun r _ => s.endWrite_ways r) ?_
    have before := h.pairs p
    rw [way, if_pos rfl] at before
    rw [pair, if_pos rfl]
    exact before.publish
  | nq =>
    refine h.of_notices rfl (fun p => s.endWrite_ways _) ?_
    have before := h.notices
    rw [way, if_pos rfl] at before
    have set : s.nq.state ≠ .unset := fun unset => by cases (before.unset unset).2
    exact ⟨fun _ => (before.indices set).publish, fun unset => absurd unset set⟩

/-- A completion record that is lost on the bus is one of a ring that is there (R164). -/
theorem loseRecord (h : s.RingsKept) (admin : (s.pair 0).state = .active) {p : PairId} {slot next : Nat} {data : List Byte} {addr : W64}
    {stale : Bool} (hb : s.onBus = some ⟨.record (.cq p) slot next data, addr, stale⟩) (counts : stale = true → p = 0) :
    (s.endWrite.updPair p Pair.countStopped).RingsKept := by
  have present : (s.pair p).state ≠ .absent := by
    cases stale with
    | true =>
      rw [counts rfl, admin]
      nofun
    | false =>
      refine (h.pairs p).present (v := next) ?_
      rw [State.ways_of_bus hb rfl]
      simp [wayOf, QueuedWrite.nextOf]
  exact h.endWrite.touch p _ present present rfl rfl rfl rfl id

/-- A notice that is lost on the bus is one of a notice ring that is set up (R164). -/
theorem loseNotice (h : s.RingsKept) {slot next : Nat} {data : List Byte} {addr : W64}
    (hb : s.onBus = some ⟨.record .nq slot next data, addr, false⟩) : (s.endWrite.recordError .nq).RingsKept := by
  have set : s.nq.state ≠ .unset := fun unset => by
    have way := (h.notices.unset unset).2
    rw [State.ways_of_bus hb rfl] at way
    simp [wayOf, QueuedWrite.nextOf] at way
  have counted : ({ s.endWrite with nq := { s.nq with totLost := satAdd max32 s.nq.totLost 1 } } : State).RingsKept :=
    h.endWrite.of_notices rfl (fun _ => .refl _) (h.endWrite.notices.touch set set rfl rfl rfl rfl)
  exact counted.failNotices set

/-- NQ_DONE moves up within the span (R162). -/
theorem nqDone (h : s.RingsKept) {v : Nat} (set : s.nq.state ≠ .unset) (span : inSpan s.nq.size s.nq.done s.nq.pub v = true) :
    ({ s with nq := { s.nq with done := v } } : State).RingsKept :=
  h.of_notices rfl (fun _ => .refl _) ⟨fun _ => (h.notices.indices set).done span, fun unset => absurd unset set⟩

/-! ### Rings that come and go (R144, R149, R151, R152) -/

/-- Two zeros carry no tail that is published (R147). -/
theorem queueZeros (h : s.RingsKept) (q : PairId) : (s.queueZeros q).RingsKept :=
  h.of_same rfl rfl fun ring => by rw [State.queueZeros_ways]

/-- A new ring is empty, and no tail of an older one is on its way to it (R149, R151). -/
theorem create (h : s.RingsKept) (q : PairId) (r : Record) (absent : (s.pair q).state = .absent) (size : ringSize (r.u16 34) = true) :
    ((s.updPair q fun _ => Record.newPair r).queueZeros q).RingsKept := by
  refine (h.updPair q (fun _ => Record.newPair r) ?_).queueZeros q
  have way : s.ways (.cq q) = [] := ((h.pairs q).absent absent).2
  rw [way]
  exact .fresh nofun (pos_of_ringSize size) rfl rfl rfl rfl

/-- The ring of a pair that becomes ABSENT is gone, and no tail of it is on its way (R151). -/
theorem becomeAbsent (h : s.RingsKept) (q : PairId) : (s.becomeAbsent q).RingsKept := by
  have way : (s.becomeAbsent q).ways (.cq q) = [] := (State.onTheWay_eq_ways _ _).symm.trans (s.becomeAbsent_onTheWay q)
  refine h.of_pair q (fun p => by simp only [State.becomeAbsent_pair, if_true]) (by rw [State.becomeAbsent_eq]) (fun ring _ => ?_) ?_
  · have gone : ({ s.staleWhen (·.ofPair q) with writeQ := s.writeQ.filter fun w => !w.ofPair q } : State).movers =
        s.movers.filter fun w => !w.ofPair q := State.movers_gone _ rfl rfl
    rw [State.ways_of_same (s := ({ s.staleWhen (·.ofPair q) with writeQ := s.writeQ.filter fun w => !w.ofPair q } : State).queueZeros q)
      (by rw [State.becomeAbsent_eq]; rfl) (by rw [State.becomeAbsent_eq]; rfl), State.queueZeros_ways, State.ways, gone]
    exact wayOf_sublist ring List.filter_sublist
  · rw [way, State.becomeAbsent_pair, if_pos rfl]
    exact ⟨fun present => absurd rfl present, fun present => absurd rfl present, fun _ => ⟨rfl, rfl⟩⟩

/-- The admin completion ring starts empty (R144). -/
theorem restart (h : s.RingsKept) (f : Pair → Pair) (size : 0 < (f (s.pair 0)).cqSize) (present : (f (s.pair 0)).state ≠ .absent) :
    ((s.updPair 0 f).restartAdminCq).RingsKept := by
  have gone : (s.updPair 0 f).restartAdminCq.movers = s.movers.filter fun w => !w.ofCq 0 := State.movers_gone (s := s) _ rfl rfl
  have pair (q : PairId) : (s.updPair 0 f).restartAdminCq.pair q = if 0 = q then (f (s.pair 0)).restarted else s.pair q := by
    rw [State.restartAdminCq_pair, State.updPair_pair, State.updPair_pair, if_pos rfl]
    split <;> rfl
  refine h.of_pair 0 (fun q => by rw [pair, pair, if_pos rfl]) rfl (fun ring _ => ?_) ?_
  · rw [State.ways, gone]
    exact wayOf_sublist ring List.filter_sublist
  · have way : (s.updPair 0 f).restartAdminCq.ways (.cq 0) = [] := by
      rw [State.ways, gone]
      exact wayOf_eq_nil fun w hw => QueuedWrite.still_of_not_ofCq (by simpa using (List.mem_filter.1 hw).2)
    rw [way, pair, if_pos rfl]
    exact .fresh present size rfl rfl rfl rfl

/-- The notice ring is set up empty, and no tail of an older one is on its way to it (R152). -/
theorem setNotices (h : s.RingsKept) (base : W64) (size : Nat) (valid : ringSize size = true) : (s.setNotices base size).RingsKept := by
  have bus : (s.setNotices base size).busMover = s.busMover.filter fun w => !w.ofNotices := s.busMover_staleWhen _
  have movers : (s.setNotices base size).movers = ((s.busMover.filter fun w => !w.ofNotices) ++
      (s.writeQ.filter fun w => !w.recordOf .nq).map QueuedWrite.unpublished) ++ [.tail .nq 0 false] := by
    rw [State.movers, bus, List.append_assoc]
    rfl
  have ways (ring : RingId) : (s.setNotices base size).ways ring = wayOf ring ((s.busMover.filter fun w => !w.ofNotices) ++
      (s.writeQ.filter fun w => !w.recordOf .nq).map QueuedWrite.unpublished) := by
    rw [State.ways, movers, wayOf_append]
    simp [QueuedWrite.tailOf, QueuedWrite.nextOf]
  refine h.of_notices rfl (fun p => ?_) ?_
  · rw [ways, wayOf_unpublished]
    exact wayOf_sublist _ (List.filter_sublist.append List.filter_sublist)
  · have way : (s.setNotices base size).ways .nq = [] := by
      rw [ways]
      refine wayOf_eq_nil fun w hw => ?_
      rcases List.mem_append.1 hw with onBus | queued
      · exact QueuedWrite.still_of_not_ofNotices (by simpa using (List.mem_filter.1 onBus).2)
      · obtain ⟨u, hu, rfl⟩ := List.mem_map.1 queued
        exact QueuedWrite.unpublished_still (by simpa using (List.mem_filter.1 hu).2)
    rw [way]
    exact ⟨fun _ => .zero (pos_of_ringSize valid), fun unset => by cases unset⟩

end State.RingsKept

/-- Every event at the Ring Engine keeps the rings in order, with one record at a time. -/
theorem RingStep.ringsKept {m m' : Moment} (h : RingStep m m') (kept : m.2.RecordsKept m.1) (rings : m.2.RingsKept) :
    m'.2.RingsKept := by
  cases h with
  | elsewhere same =>
    exact rings.of_same (congrArg RingSide.pairs same) (congrArg RingSide.nq same) fun ring => by
      rw [State.ways_of_same (congrArg RingSide.onBus same) (congrArg RingSide.writeQ same)]
  | @grant s p free wants =>
    obtain ⟨-, ⟨active, -⟩, -, -, room⟩ := (s.wantsFetch_iff p).1 wants
    have present : (s.pair p).state ≠ .absent := by rw [active]; nofun
    exact (rings.updPair p (fun q => { q with reserved := true }) ((rings.pairs p).reserve present room)).of_same rfl rfl
      fun _ => .refl _
  | @endRead s e he =>
    have present := State.RecordsKept.present_of_engine kept he
    exact (rings.touch e.pair (fun q => { q with reserved := false }) present present rfl rfl rfl rfl nofun).of_same rfl rfl
      fun _ => .refl _
  | @start s e r he =>
    have present := State.RecordsKept.present_of_engine kept he
    have moved := rings.touch e.pair (fun q => { q with sqHead := ((s.pair e.pair).sqHead + 1) % (s.pair e.pair).sqSize })
      present present rfl rfl rfl rfl id
    refine moved.of_same rfl rfl fun ring => ?_
    have ways : (s.startRecord e.pair r).ways ring = s.ways ring :=
      State.ways_append s (s.startRecord e.pair r) [.head e.pair (((s.pair e.pair).sqHead + 1) % (s.pair e.pair).sqSize)] rfl rfl
        (fun _ => by simp [QueuedWrite.tailOf, QueuedWrite.nextOf]) ring
    exact ways ▸ .refl _
  | answer p st d n => exact rings.handAck p st d n
  | proceed p ph => exact rings.setPhase p ph
  | drain p => exact rings.setPhase p _
  | ack p st d n => exact rings.handAck p st d n
  | create q r absent size => exact rings.create q r absent size
  | startDrain q work present =>
    exact rings.touch q (fun y => { y with state := .draining }) present (fun absent => by cases absent) rfl rfl rfl rfl id
  | discard q => exact rings.setPhase 0 _
  | delete q st d n => exact (rings.becomeAbsent q).handAck 0 st d n
  | @undrain s q st d n hq =>
    have draining := (kept.deleting q hq).2
    refine State.RingsKept.handAck ?_ 0 st d n
    refine rings.touch q Pair.undrained (by rw [draining]; nofun) ?_ rfl rfl rfl rfl id
    unfold Pair.undrained
    dsimp only
    split <;> nofun
  | setNotices base size valid => exact rings.setNotices base size valid
  | @queueSnapshot _ s q addr =>
    refine rings.of_same rfl rfl fun ring => ?_
    have ways : (s.queueSnapshot q addr).ways ring = s.ways ring :=
      State.ways_append s (s.queueSnapshot q addr) [.snapshot addr (s.snapshotOf q)] rfl rfl
        (fun _ => by simp [QueuedWrite.tailOf, QueuedWrite.nextOf]) ring
    exact ways ▸ .refl _
  | fault c => exact rings.setFault c kept.admin
  | cause p c work => exact rings.setCause p c
  | request p q rest hr => exact rings.takeRequest kept hr
  | notice n => exact rings.takeNotification n
  | issue w rest free hw => exact rings.issue free hw
  | written ring slot next data addr hb => exact rings.written hb
  | endWrite => exact rings.endWrite
  | loseRecord p slot next data addr stale hb counts => exact rings.loseRecord kept.admin hb counts
  | loseNotice slot next data addr hb => exact rings.loseNotice hb
  | publish ring v addr hb => exact rings.publish hb
  | @submission s p f present same =>
    have there : (s.pair p).state ≠ .absent := present.elim (fun admin => by rw [admin, kept.admin]; nofun) id
    refine rings.touch p f there ?_ ?_ ?_ ?_ ?_ fun reserved => ?_
    any_goals rw [same]
    · exact there
    · rwa [same] at reserved
  | @restart s f size state =>
    have there : (s.pair 0).state ≠ .absent := by rw [kept.admin]; nofun
    refine rings.restart f ?_ (by rwa [state])
    rcases size with same | valid
    · rw [same]
      exact Nat.zero_lt_of_lt ((rings.pairs 0).indices there).1
    · exact pos_of_ringSize valid
  | @cqDone s p v present span => exact rings.updPair p (fun q => { q with cqDone := v }) ((rings.pairs p).done present span)
  | nqDone v set span => exact rings.nqDone set span
  | failNotices active => exact rings.failNotices (by rw [active]; nofun)

/-- Settles O52: every event keeps the rings in order while each pair has one record at a time, and a reset leaves them empty. -/
theorem ringsStayInOrder : Obligations.RingsStayInOrder := by
  intro s t one rings h
  rw [State.oneRecord_iff] at one
  rw [State.ringsInOrder_iff_kept] at rings ⊢
  rcases step_ringSide s t h with events | reset
  · exact (events.keeps (fun m => m.2.RecordsKept m.1 ∧ m.2.RingsKept)
      (fun _ _ event ⟨kept, rings⟩ => ⟨event.recordsKept kept, event.ringsKept kept rings⟩) ⟨one, rings⟩).2
  · refine ((State.ringsInOrder_iff_kept _).1 State.reset_ringsInOrder).of_same (congrArg RingSide.pairs reset)
      (congrArg RingSide.nq reset) fun ring => ?_
    rw [State.ways_of_same (congrArg RingSide.onBus reset) (congrArg RingSide.writeQ reset)]

end Sys2Proof.Machine

namespace Sys2Proof.Machine

/-! ## The queue of waiting commands -/

/-- States of one clock have one queue. -/
theorem State.pending_of_clock {s t : State} (h : t.clock = s.clock) : t.pending = s.pending :=
  congrArg (fun x => x.2.2.2.2) h

/-- Settles O1: it is the definition of a step, by what the queue holds. -/
theorem stepRunsTheFrontCommand : Obligations.StepRunsTheFrontCommand := by
  refine ⟨fun c rest s front => ?_, fun s empty => ?_⟩
  · rw [step, front]
  · rw [step, empty]

theorem State.advanceTime_pending (s : State) : s.advanceTime.pending = s.pending := rfl

/-- A reset keeps the queue (log 2). -/
theorem pending_of_isReset (c : Instr) (s t : State) (hc : c.isReset = true) (h : exec c s = .next t) : t.pending = s.pending := by
  rcases exec_of_isReset c s t hc h with rfl | ⟨_, _, _, _, rfl⟩
  · rfl
  · rfl

/-- Settles O2: no command but a TICK, a reset and the end of a reset moves the clock, of which the queue is a part; and these keep
the queue. -/
theorem commandsLeaveTheQueueAlone : Obligations.CommandsLeaveTheQueueAlone := by
  intro c s t h
  cases moves : c.movesClock with
  | false => exact State.pending_of_clock (exec_clock c s t moves h)
  | true =>
    cases c
    case tick =>
      cases h
      split
      · rfl
      · have due : s.takeDue.pending = s.pending := State.pending_of_clock s.takeDue_clock
        exact s.takeDue.advanceTime_pending.trans due
    case resetDone =>
      cases h
      split <;> rfl
    case fullReset pins => exact pending_of_isReset (.fullReset pins) s t rfl h
    case softReset pins => exact pending_of_isReset (.softReset pins) s t rfl h
    case registerWrite offset v => exact pending_of_isReset (.registerWrite offset v) s t moves h
    all_goals cases moves

end Sys2Proof.Machine

namespace Sys2Proof.Machine

/-! ## Writes to the register window (R142, R144, R161, R162) -/

/-- While READY is 1 a write takes effect (R142). -/
theorem State.whenReady_ready {s : State} (ready : s.resetting = none) (f : State → State) : s.whenReady f = f s := by
  rw [State.whenReady, ready]

/-- While READY is 0 a write is ignored (R142). -/
theorem State.whenReady_resetting {s : State} {x : ResetCause} (h : s.resetting = some x) (f : State → State) : s.whenReady f = s := by
  rw [State.whenReady, h]

/-- That no work pair is present, pair by pair. -/
theorem State.noWorkPair_iff (s : State) : s.noWorkPair = true ↔ ∀ p : PairId, p ≠ 0 → (s.pair p).state = .absent := by
  have work : ∀ p : PairId, p ∈ ([1, 2, 3, 4, 5, 6, 7, 8] : List PairId) ↔ p ≠ 0 := by decide
  simp only [State.noWorkPair, List.all_eq_true, decide_eq_true_eq, work]

/-- A write that its register ignores leaves the state as it is, whatever READY is. -/
theorem State.whenReady_ignored {s : State} (f : State → State) (h : f s = s) : s.whenReady f = s := by
  unfold State.whenReady
  split
  · rfl
  · exact h

/-- Settles O7: by the condition under which the admin registers take writes. -/
theorem adminRegistersTakeWrites : Obligations.AdminRegistersTakeWrites := by
  intro s x v z
  have sizes : exec (.adminSizesWrite z) s = .next (s.whenReady fun s => s.writeAdminSizes z) := rfl
  have block : exec (.statusBlockBaseWrite x v) s = .next (s.whenReady fun s => s.writeStatusBlockBase x v) := rfl
  have sqBase : exec (.adminSqBaseWrite x v) s = .next (s.whenReady fun s => s.writeAdminSqBase x v) := rfl
  have cqBase : exec (.adminCqBaseWrite x v) s = .next (s.whenReady fun s => s.writeAdminCqBase x v) := rfl
  rw [block, sqBase, cqBase, sizes]
  refine ⟨fun ready enable free idle => ?taken, fun busy => ?ignored⟩
  case taken =>
    have opened : s.adminOpen = true := s.adminOpen_iff.2 ⟨enable, free, idle⟩
    refine ⟨fun absent unset => congrArg _ ?_, fun present => congrArg _ ?_, congrArg _ ?_, congrArg _ ?_, fun sq cq => congrArg _ ?_,
      fun bad => congrArg _ ?_⟩
    · rw [State.whenReady_ready ready, State.writeStatusBlockBase, if_pos ⟨opened, s.noWorkPair_iff.2 absent, unset⟩]
    · rw [State.whenReady_ready ready, State.writeStatusBlockBase, if_neg]
      rintro ⟨-, absent, unset⟩
      rcases present with ⟨p, work, there⟩ | set
      · exact there (s.noWorkPair_iff.1 absent p work)
      · exact set unset
    · rw [State.whenReady_ready ready, State.writeAdminSqBase, if_pos opened, State.restartAdminSq, State.updPair_updPair]
      rfl
    · rw [State.whenReady_ready ready, State.writeAdminCqBase, if_pos opened]
      rfl
    · rw [State.whenReady_ready ready, State.writeAdminSizes, if_pos ⟨opened, sq, cq⟩, State.restartAdminSq, State.updPair_updPair]
      rfl
    · rw [State.whenReady_ready ready, State.writeAdminSizes, if_neg]
      rintro ⟨-, sq, cq⟩
      rcases bad with bad | bad
      · exact absurd (sq.symm.trans bad) nofun
      · exact absurd (cq.symm.trans bad) nofun
  case ignored =>
    have closed : ¬s.adminOpen = true := fun opened => by
      obtain ⟨enable, free, idle⟩ := s.adminOpen_iff.1 opened
      rcases busy with h | h | h
      · exact absurd (enable.symm.trans h) nofun
      · exact absurd (free.symm.trans h) nofun
      · exact h idle
    refine ⟨congrArg _ ?_, congrArg _ ?_, congrArg _ ?_, congrArg _ ?_⟩
    · exact State.whenReady_ignored _ (if_neg fun h => closed h.1)
    · exact State.whenReady_ignored _ (if_neg closed)
    · exact State.whenReady_ignored _ (if_neg closed)
    · exact State.whenReady_ignored _ (if_neg fun h => closed h.1)

/-- The span of R162, by the distances from the done index. -/
theorem inSpan_iff (size done pub v : Nat) : inSpan size done pub v = true ↔ v < size ∧ ahead size done v ≤ ahead size done pub := by
  simp [inSpan, ahead]

/-- Settles O8: each write by the state of its ring and by its value. -/
theorem hostIndexWrites : Obligations.HostIndexWrites := by
  intro s p v ready
  have post (q : PairId) : exec (.sqPostWrite q v) s = .next (s.writeSqPost q v) := congrArg _ (State.whenReady_ready ready _)
  have cqDone : exec (.cqDoneWrite p v) s = .next (s.writeCqDone p v) := congrArg _ (State.whenReady_ready ready _)
  have nqDone : exec (.nqDoneWrite v) s = .next (s.writeNqDone v) := congrArg _ (State.whenReady_ready ready _)
  rw [post, post, cqDone, nqDone]
  refine ⟨fun work state cause => congrArg _ ?_, fun work stopped => congrArg _ ?_, fun small => congrArg _ ?_,
    fun large => congrArg _ ?_, fun absent => congrArg _ ?_, fun present inside => congrArg _ ?_, fun present outside => congrArg _ ?_,
    fun unset => congrArg _ ?_, fun set inside => congrArg _ ?_, fun active outside => congrArg _ ?_, fun error outside => congrArg _ ?_⟩
  · rw [State.writeSqPost, if_neg work, if_pos ⟨state, cause⟩]
    rfl
  · rw [State.writeSqPost, if_neg work, if_neg]
    rintro ⟨state, cause⟩
    rcases stopped with h | h | h
    · rcases state with h' | h' <;> cases h.symm.trans h'
    · rcases state with h' | h' <;> cases h.symm.trans h'
    · exact h cause
  · rw [State.writeSqPost, if_pos rfl, if_pos small]
    rfl
  · rw [State.writeSqPost, if_pos rfl, if_neg large]
  · rw [State.writeCqDone, if_pos absent]
  · rw [State.writeCqDone, if_neg present, if_pos ((inSpan_iff ..).2 inside)]
    rfl
  · rw [State.writeCqDone, if_neg present, if_neg fun span => outside ((inSpan_iff ..).1 span)]
  · rw [State.writeNqDone, if_pos unset]
  · rw [State.writeNqDone, if_neg set, if_pos ((inSpan_iff ..).2 inside)]
  · rw [State.writeNqDone, if_neg (by rw [active]; nofun), if_neg fun span => outside ((inSpan_iff ..).1 span), if_pos active]
    rfl
  · rw [State.writeNqDone, if_neg (by rw [error]; nofun), if_neg fun span => outside ((inSpan_iff ..).1 span),
      if_neg (by rw [error]; nofun)]

end Sys2Proof.Machine

namespace Sys2Proof.Machine

/-! ## The interrupt (R160) -/

/-- The number that a list of bits spells has these bits. -/
theorem testBit_bitsNat (l : List Bool) (i : Nat) : (bitsNat l).testBit i = l[i]?.getD false := by
  induction l generalizing i with
  | nil => simp [bitsNat]
  | cons b l ih =>
    have half : (b.toNat + 2 * bitsNat l) / 2 = bitsNat l := by
      cases b <;> simp only [Bool.toNat_false, Bool.toNat_true] <;> omega
    cases i with
    | zero => cases b <;> simp [bitsNat, Nat.testBit_zero]
    | succ i => rw [bitsNat, Nat.testBit_succ, half, ih, List.getElem?_cons_succ]

section
variable (s t : State)

/-- IRQ_PENDING has the bits listed, from bit 0 up. -/
theorem State.irqPending_getLsbD {i : Nat} (h : i < 11) : s.irqPending.getLsbD i = s.irqBits[i]?.getD false := by
  rw [State.irqPending, BitVec.getLsbD_ofNat, testBit_bitsNat, decide_eq_true h, Bool.true_and]

theorem State.irqPending_pair (p : PairId) : s.irqPending.getLsbD p = ((s.pair p).cqPub != (s.pair p).cqDone) := by
  rw [s.irqPending_getLsbD (by omega), State.irqBits, List.getElem?_append_left (by simp)]
  simp [State.pair]

theorem State.irqPending_notices : s.irqPending.getLsbD 9 = (s.nq.pub != s.nq.done) := by
  rw [s.irqPending_getLsbD (by omega), State.irqBits, List.getElem?_append_right (by simp)]
  simp

theorem State.irqPending_fault : s.irqPending.getLsbD 10 = s.fault.isSome := by
  rw [s.irqPending_getLsbD (by omega), State.irqBits, List.getElem?_append_right (by simp)]
  simp

variable {s t} in
/-- IRQ_PENDING is told by the published tails, the done indices and FAULT. -/
theorem State.irqPending_of_same (pairs : ∀ p, (t.pair p).cqPub = (s.pair p).cqPub ∧ (t.pair p).cqDone = (s.pair p).cqDone)
    (nq : t.nq = s.nq) (fault : t.fault = s.fault) : t.irqPending = s.irqPending := by
  refine BitVec.eq_of_getLsbD_eq fun i hi => ?_
  obtain hp | rfl | rfl : i < 9 ∨ i = 9 ∨ i = 10 := by omega
  · have pair := pairs ⟨i, hp⟩
    rw [t.irqPending_pair ⟨i, hp⟩, s.irqPending_pair ⟨i, hp⟩, pair.1, pair.2]
  · rw [t.irqPending_notices, s.irqPending_notices, nq]
  · rw [t.irqPending_fault, s.irqPending_fault, fault]

/-- A change of a pair that moves neither its published tail nor its done index. -/
theorem State.updPair_irqPending (p : PairId) (f : Pair → Pair) (pub : (f (s.pair p)).cqPub = (s.pair p).cqPub)
    (done : (f (s.pair p)).cqDone = (s.pair p).cqDone) : (s.updPair p f).irqPending = s.irqPending := by
  refine State.irqPending_of_same (fun q => ?_) rfl rfl
  rw [State.updPair_pair]
  split
  · next same => exact same ▸ ⟨pub, done⟩
  · exact ⟨rfl, rfl⟩

theorem State.flushCq_irqPending (p : PairId) : (s.flushCq p).irqPending = s.irqPending :=
  s.updPair_irqPending p (fun q =>
    { q with totLost := satAdd max32 q.totLost (s.writeQ.filter fun w => w.recordOf (.cq p)).length }) rfl rfl

/-- An error of a work pair moves no index (R148). -/
theorem State.setCause_irqPending (p : PairId) (c : ErrorCause) : (s.setCause p c).irqPending = s.irqPending := by
  unfold State.setCause
  split
  · rw [State.flushCq_irqPending]
    exact s.updPair_irqPending p (fun q => { q with state := .error, cause := some c }) rfl rfl
  · rw [State.flushCq_irqPending]
    exact s.updPair_irqPending p (fun q => { q with cause := some c }) rfl rfl
  · rfl

/-- IRQ_N is asserted for a bit that is pending and enabled (R160). -/
theorem State.irqAsserted_iff : s.irqAsserted = true ↔ ∃ i : Fin 11, s.irqPending.getLsbD i = true ∧ s.irqMask.getLsbD i = true := by
  have zero (i : Nat) : (0 : BitVec 11).getLsbD i = false := BitVec.getLsbD_zero
  rw [State.irqAsserted, bne_iff_ne]
  constructor
  · intro asserted
    by_contra idle
    refine asserted (BitVec.eq_of_getLsbD_eq fun i hi => ?_)
    rw [BitVec.getLsbD_and, zero, Bool.eq_false_iff]
    intro both
    exact idle ⟨⟨i, hi⟩, Bool.and_eq_true_iff.1 both⟩
  · rintro ⟨i, pending, enabled⟩ idle
    have bit := congrArg (fun x => x.getLsbD i) idle
    rw [BitVec.getLsbD_and, pending, enabled, zero] at bit
    cases bit

end

/-- Settles O11, bit by bit. -/
theorem interruptFollowsTheIndices : Obligations.InterruptFollowsTheIndices := by
  refine fun s => ⟨s.irqPending_pair, s.irqPending_notices, s.irqPending_fault, s.irqAsserted_iff, fun rings => ?gone,
    fun p c _ => s.setCause_irqPending p c, fun p v ready error small span => ?takes⟩
  case gone =>
    obtain ⟨-, absent, -, unset⟩ := rings
    refine ⟨fun p hp => ?_, fun hq => ?_⟩
    · rw [s.irqPending_pair, (absent p hp).1]
      rfl
    · rw [s.irqPending_notices, (unset hq).1]
      rfl
  case takes =>
    have present : (s.pair p).state ≠ .absent := by rw [error]; nofun
    obtain ⟨-, -, -, -, -, inside, -⟩ := hostIndexWrites s p v ready
    exact inside present ⟨small, span⟩

end Sys2Proof.Machine

namespace Sys2Proof.Machine

/-! ## The places of the register window (R142, R196) -/

/-- The place of an offset starts at the multiple of 8 below it. -/
theorem place_toNat (o : BitVec 12) : (o &&& 0xFF8).toNat = o.toNat / 8 * 8 := by
  have shifted : o &&& (0xFF8 : BitVec 12) = (o >>> 3) <<< 3 := by
    refine BitVec.eq_of_getLsbD_eq fun i hi => ?_
    interval_cases i <;> simp
  have := o.isLt
  rw [shifted, BitVec.toNat_shiftLeft, BitVec.toNat_ushiftRight, Nat.shiftLeft_eq, Nat.shiftRight_eq_div_pow]
  omega

/-- An offset that starts a place is its own place. -/
theorem place_of_aligned {o : BitVec 12} (h : o.toNat % 8 = 0) : o &&& 0xFF8 = o := by
  refine BitVec.eq_of_toNat_eq ?_
  rw [place_toNat]
  omega

section
variable (s : State)

/-- A read at the start of a place returns the place whole. -/
theorem State.windowRead_of_aligned {o : BitVec 12} (h : o.toNat % 8 = 0) : s.windowRead o = s.placeRead o := by
  rw [State.windowRead, place_of_aligned h, h]
  rfl

/-- A read within a place returns its bytes from there on. -/
theorem State.windowRead_place (o : BitVec 12) : s.windowRead o = s.windowRead (o &&& 0xFF8) >>> (8 * (o.toNat % 8)) := by
  have aligned : (o &&& 0xFF8).toNat % 8 = 0 := by
    rw [place_toNat]
    omega
  rw [s.windowRead_of_aligned aligned, State.windowRead]

/-- A read of a place that reads as 0 (R142). -/
theorem State.windowRead_zero {o : BitVec 12} (h : s.placeRead (o &&& 0xFF8) = 0) : s.windowRead o = 0 := by
  rw [State.windowRead, h]
  exact BitVec.zero_ushiftRight

/-- While READY is 1 a place reads as the register has it. -/
theorem State.placeRead_ready {s : State} (ready : s.resetting = none) (o : BitVec 12) : s.placeRead o = s.register o := by
  rw [State.placeRead, ready]

/-- While READY is 0 a place reads as it is reset (R142). -/
theorem State.placeRead_resetting {s : State} {x : ResetCause} (h : s.resetting = some x) (o : BitVec 12) :
    s.placeRead o = (State.cleared s.ts (some x) s.resetCause s.pins s.pending).register o := by
  rw [State.placeRead, h]

/-! ### The registers -/

/-- The pair of an offset in a block of nine registers (R196). -/
theorem pairAt_offset (p : PairId) {n base : Nat} (h : n = base + 8 * p.val) : Fin.ofNat 9 ((n - base) / 8) = p :=
  Fin.ext (by
    simp only [Fin.val_ofNat]
    omega)

/-- The SQ_POST registers (R196). -/
theorem State.register_sqPost (p : PairId) {o : BitVec 12} (h : o.toNat = 0x100 + 8 * p.val) :
    s.register o = BitVec.ofNat 64 (s.pair p).sqPost := by
  unfold State.register
  dsimp only
  iterate 10 rw [if_neg (by omega)]
  rw [if_pos (by omega), pairAt_offset p h]

/-- The CQ_DONE registers (R196). -/
theorem State.register_cqDone (p : PairId) {o : BitVec 12} (h : o.toNat = 0x200 + 8 * p.val) :
    s.register o = BitVec.ofNat 64 (s.pair p).cqDone := by
  unfold State.register
  dsimp only
  iterate 11 rw [if_neg (by omega)]
  rw [if_pos (by omega), pairAt_offset p h]

theorem State.register_irqPending : s.register 0x048 = s.irqPending.zeroExtend 64 := rfl

/-- An offset that is none of the pairs' is none of the nine of its block. -/
theorem not_mem_block {n base : Nat} (start : base % 8 = 0) (h : ∀ p : PairId, n ≠ base + 8 * p.val) :
    ¬(base ≤ n ∧ n ≤ base + 0x40 ∧ n % 8 = 0) := by
  rintro ⟨low, high, aligned⟩
  exact h ⟨(n - base) / 8, by omega⟩ (by dsimp only; omega)

/-- A place that holds no register reads as 0 (R142). -/
theorem State.register_eq_zero {o : BitVec 12}
    (single : o ∉ ([0x000, 0x008, 0x010, 0x018, 0x020, 0x028, 0x030, 0x038, 0x040, 0x048, 0x280] : List (BitVec 12)))
    (pairs : ∀ p : PairId, o.toNat ≠ 0x100 + 8 * p.val ∧ o.toNat ≠ 0x200 + 8 * p.val) : s.register o = 0 := by
  simp only [List.mem_cons, List.not_mem_nil, or_false, not_or, ← BitVec.toNat_inj, BitVec.ofNat_eq_ofNat, BitVec.toNat_ofNat] at single
  have post := not_mem_block (base := 0x100) rfl fun p => (pairs p).1
  have done := not_mem_block (base := 0x200) rfl fun p => (pairs p).2
  unfold State.register
  dsimp only
  iterate 13 rw [if_neg (by omega)]

/-- While READY is 0 every register but IDENT, STATUS and ADMIN_SIZES reads as 0 (R166). -/
theorem State.cleared_register (ts : Nat) (r : Option ResetCause) (c : ResetCause) (pins : Pins) (q : List Instr) {o : BitVec 12}
    (h : o ∉ ([0x000, 0x008, 0x018, 0x038] : List (BitVec 12))) : (State.cleared ts r c pins q).register o = 0 := by
  have pair (p : PairId) : (State.cleared ts r c pins q).pair p = if p = 0 then blankAdmin else absentPair := by
    simp [State.cleared, State.pair]
  have indices (p : PairId) : ((State.cleared ts r c pins q).pair p).sqPost = 0 ∧ ((State.cleared ts r c pins q).pair p).cqDone = 0 := by
    rw [pair]
    split <;> exact ⟨rfl, rfl⟩
  by_cases single : o ∈ ([0x010, 0x020, 0x028, 0x030, 0x040, 0x048, 0x280] : List (BitVec 12))
  · simp only [List.mem_cons, List.not_mem_nil, or_false] at single
    rcases single with rfl | rfl | rfl | rfl | rfl | rfl | rfl
    · rfl
    · rfl
    · exact congrArg Pair.sqBase (pair 0)
    · exact congrArg Pair.cqBase (pair 0)
    · rfl
    · rw [State.register_irqPending, State.cleared_irqPending]
      exact BitVec.setWidth_zero ..
    · rfl
  by_cases post : ∃ p : PairId, o.toNat = 0x100 + 8 * p.val
  · obtain ⟨p, hp⟩ := post
    rw [State.register_sqPost _ p hp, (indices p).1]
    rfl
  by_cases done : ∃ p : PairId, o.toNat = 0x200 + 8 * p.val
  · obtain ⟨p, hp⟩ := done
    rw [State.register_cqDone _ p hp, (indices p).2]
    rfl
  refine State.register_eq_zero _ ?_ fun p => ⟨fun hp => post ⟨p, hp⟩, fun hp => done ⟨p, hp⟩⟩
  simp only [List.mem_cons, List.not_mem_nil, or_false, not_or] at h single ⊢
  tauto

/-! ### Writes by offset -/

/-- A write at the offset of SQ_POST of a pair (log 39). -/
theorem State.writeRegister_sqPost (p : PairId) {o : BitVec 12} (v : W64) (h : o.toNat = 0x100 + 8 * p.val) :
    s.writeRegister o v = s.writeSqPost p (v.truncate 32) := by
  unfold State.writeRegister
  dsimp only
  iterate 9 rw [if_neg (by omega)]
  rw [if_pos (by omega), pairAt_offset p h]

/-- A write at the offset of CQ_DONE of a pair (log 39). -/
theorem State.writeRegister_cqDone (p : PairId) {o : BitVec 12} (v : W64) (h : o.toNat = 0x200 + 8 * p.val) :
    s.writeRegister o v = s.writeCqDone p (v.truncate 32) := by
  unfold State.writeRegister
  dsimp only
  iterate 10 rw [if_neg (by omega)]
  rw [if_pos (by omega), pairAt_offset p h]

/-- A write at an offset where no register takes one is ignored (log 39). -/
theorem State.writeRegister_ignored {o : BitVec 12} (v : W64)
    (single : o ∉ ([0x010, 0x020, 0x024, 0x028, 0x02C, 0x030, 0x034, 0x038, 0x040, 0x280] : List (BitVec 12)))
    (pairs : ∀ p : PairId, o.toNat ≠ 0x100 + 8 * p.val ∧ o.toNat ≠ 0x200 + 8 * p.val) : s.writeRegister o v = s := by
  simp only [List.mem_cons, List.not_mem_nil, or_false, not_or, ← BitVec.toNat_inj, BitVec.ofNat_eq_ofNat, BitVec.toNat_ofNat] at single
  have post := not_mem_block (base := 0x100) rfl fun p => (pairs p).1
  have done := not_mem_block (base := 0x200) rfl fun p => (pairs p).2
  unfold State.writeRegister
  dsimp only
  iterate 12 rw [if_neg (by omega)]

/-- While READY is 0 no write to the window is taken (R142). -/
theorem exec_windowWrite_resetting {c : Instr} {x : ResetCause} (h : s.resetting = some x) (hc : c.isWindowWrite = true) :
    exec c s = .next s := by
  cases c
  case softReset | enableWrite | statusBlockBaseWrite | adminSqBaseWrite | adminCqBaseWrite | adminSizesWrite | sqPostWrite
      | cqDoneWrite | nqDoneWrite | irqMaskWrite | registerWrite =>
    exact congrArg Host.Outcome.next (State.whenReady_resetting h _)
  all_goals cases hc

/-- A write by offset is the write of the register there (log 39). -/
theorem exec_registerWrite {s : State} (ready : s.resetting = none) (o : BitVec 12) (v : W64) :
    exec (.registerWrite o v) s = .next (s.writeRegister o v) := congrArg Host.Outcome.next (State.whenReady_ready ready _)

/-! ### STATUS and IDENT -/

/-- STATUS with READY 1 (R143, R196). -/
theorem State.statusWord_ready {s : State} (ready : s.resetting = none) :
    s.statusWord = 1 + (s.fault.elim 0 fun c => 2 + 2 ^ 8 * c.code) + if s.resetCause = .soft then 2 ^ 16 else 0 := by
  unfold State.statusWord
  rw [ready]
  cases s.fault <;> cases s.resetCause <;> simp
  all_goals omega

/-- STATUS with READY 0: a reset clears FAULT (R166). -/
theorem State.statusWord_cleared (ts : Nat) (x c : ResetCause) (pins : Pins) (q : List Instr) :
    (State.cleared ts (some x) c pins q).statusWord = if c = .soft then 2 ^ 16 else 0 := by
  unfold State.statusWord
  cases c <;> simp [State.cleared]

/-- The fixed bytes of IDENT word 0 around the revision (R196). -/
theorem identWord0_fields : (BitVec.ofNat 64 identWord0).truncate 32 = (0xC4164B5A : W32) ∧ BitVec.ofNat 64 identWord0 >>> 40 = 0 := by
  have revision := Config.revision.isLt
  refine ⟨BitVec.eq_of_toNat_eq ?_, BitVec.eq_of_toNat_eq ?_⟩
  · simp only [BitVec.truncate_eq_setWidth, BitVec.toNat_setWidth, BitVec.ofNat_eq_ofNat, BitVec.toNat_ofNat, identWord0]
    omega
  · simp only [BitVec.toNat_ushiftRight, BitVec.ofNat_eq_ofNat, BitVec.toNat_ofNat, identWord0, Nat.shiftRight_eq_div_pow]
    omega

end

/-- Settles O6: writes by READY and by offset, and reads by READY and by place. -/
theorem registerWritesTakeEffectWhenReady : Obligations.RegisterWritesTakeEffectWhenReady := by
  intro s b m o v
  refine ⟨fun ready => ?writes, fun single pairs => ?ignored, fun c x h hc => exec_windowWrite_resetting s h hc, ?ident,
    fun ready => ?registers, fun x h => ?resetting, fun single pairs => ?empty, s.windowRead_place o⟩
  case writes =>
    have takes (f : State → State) : (.next (f s) : Host.Outcome State Fault Refusal) = .next (s.whenReady f) :=
      congrArg _ (State.whenReady_ready ready f).symm
    rw [exec_registerWrite ready]
    refine ⟨congrArg _ (State.whenReady_ready ready _), congrArg _ (State.whenReady_ready ready _), ?control, ?_, ?_, ?_, ?_, ?_, ?_, ?_,
      ?_, fun p h => ?post, fun p h => ?done, ?_⟩
    case control =>
      rintro rfl
      have control : s.writeRegister 0x010 v = s.writeControl (v.truncate 32) := rfl
      have bits : (v.truncate 32).getLsbD 1 = v.getLsbD 1 ∧ (v.truncate 32).getLsbD 0 = v.getLsbD 0 := by simp
      rw [control, State.writeControl, bits.1, bits.2]
      split
      · exact takes fun s => s.softReset s.pins
      · exact takes fun s => { s with enable := v.getLsbD 0 }
    case post =>
      rw [s.writeRegister_sqPost p v h]
      exact takes fun s => s.writeSqPost p (v.truncate 32)
    case done =>
      rw [s.writeRegister_cqDone p v h]
      exact takes fun s => s.writeCqDone p (v.truncate 32)
    all_goals rintro rfl
    · exact takes fun s => s.writeStatusBlockBase .whole v
    · exact takes fun s => s.writeStatusBlockBase .high (v <<< 32)
    · exact takes fun s => s.writeAdminSqBase .whole v
    · exact takes fun s => s.writeAdminSqBase .high (v <<< 32)
    · exact takes fun s => s.writeAdminCqBase .whole v
    · exact takes fun s => s.writeAdminCqBase .high (v <<< 32)
    · exact takes fun s => s.writeAdminSizes (v.truncate 32)
    · exact takes fun s => s.writeIrqMask (v.truncate 32)
    · exact takes fun s => s.writeNqDone (v.truncate 32)
  case ignored =>
    exact congrArg Host.Outcome.next (State.whenReady_ignored _ (s.writeRegister_ignored v single pairs))
  case ident =>
    have word0 : s.windowRead 0x000 = BitVec.ofNat 64 identWord0 := by
      rw [s.windowRead_of_aligned (by decide), State.placeRead]
      split <;> rfl
    rw [word0]
    refine ⟨identWord0_fields.1, identWord0_fields.2, ?_⟩
    change s.windowRead 0x008 = _
    rw [s.windowRead_of_aligned (by decide), State.placeRead]
    split <;> rfl
  case registers =>
    have reads {a : BitVec 12} (h : a.toNat % 8 = 0) : s.windowRead a = s.register a :=
      (s.windowRead_of_aligned h).trans (State.placeRead_ready ready a)
    refine ⟨?_, ?_, reads (by decide), reads (by decide), reads (by decide), reads (by decide), reads (by decide), reads (by decide),
      fun p h => (reads (by omega)).trans (s.register_sqPost p h), fun p h => (reads (by omega)).trans (s.register_cqDone p h),
      reads (by decide)⟩
    · refine (reads (by decide)).trans ?_
      change BitVec.ofNat 64 s.enable.toNat = _
      cases s.enable <;> rfl
    · rw [← State.statusWord_ready ready]
      exact reads (by decide)
  case resetting =>
    have reads {a : BitVec 12} (ha : a.toNat % 8 = 0) : s.windowRead a = _ :=
      (s.windowRead_of_aligned ha).trans (State.placeRead_resetting h a)
    refine ⟨?_, (reads (by decide)).trans ?_, fun other => s.windowRead_zero ?_⟩
    · refine (reads (by decide)).trans ((congrArg (BitVec.ofNat 64) (State.statusWord_cleared ..)).trans ?_)
      split <;> rfl
    · have admin : (State.cleared s.ts (some x) s.resetCause s.pins s.pending).pair 0 = blankAdmin := by
        simp [State.cleared, State.pair]
      change BitVec.ofNat 64 (((State.cleared s.ts (some x) s.resetCause s.pins s.pending).pair 0).sqSize +
        2 ^ 16 * ((State.cleared s.ts (some x) s.resetCause s.pins s.pending).pair 0).cqSize) = _
      rw [admin]
      rfl
    · rw [State.placeRead_resetting h]
      exact State.cleared_register _ _ _ _ _ other
  case empty =>
    refine s.windowRead_zero ?_
    unfold State.placeRead
    split <;> exact State.register_eq_zero _ single pairs

end Sys2Proof.Machine

namespace Sys2Proof.Machine

/-! ## What an error does (R143, R148) -/

/-- A change of a pair and the flush of its ring, at once. -/
theorem State.updPair_flushCq (s : State) (p : PairId) (f : Pair → Pair) :
    (s.updPair p f).flushCq p = { s with
      pairs := s.pairs.set p { f (s.pair p) with
        totLost := min (2 ^ 32 - 1) ((f (s.pair p)).totLost + (s.writeQ.filter fun w => w.recordOf (.cq p)).length) }
      writeQ := s.writeQ.filter fun w => !w.recordOf (.cq p) } := by
  rw [State.flushCq, State.updPair_updPair]
  rfl

/-- A snapshot is no record (R184). -/
theorem QueuedWrite.recordOf_of_isSnapshot {w : QueuedWrite} (h : w.isSnapshot = true) (ring : RingId) : w.recordOf ring = false := by
  cases w with
  | snapshot => rfl
  | record | head | tail => cases h

/-- With no snapshot waiting none is dropped (R184). -/
theorem State.dropSnapshot_none {s : State}
    (h : (∀ stamp, (s.proc 0).phase ≠ some (.querying stamp)) ∨ ∀ w ∈ s.writeQ, w.isSnapshot = false) : s.dropSnapshot = s := by
  unfold State.dropSnapshot
  split
  · next stamp hp =>
    have queued := h.resolve_left fun other => other stamp hp
    rw [if_neg]
    simpa using queued
  · rfl

/-- A snapshot that waits is dropped, and its QUERY is answered (R184). -/
theorem State.dropSnapshot_some {s : State} {kd : Byte} {ck : W32} {stamp : Nat} (hp : s.proc 0 = .busy kd ck (.querying stamp))
    (hw : ∃ w ∈ s.writeQ, w.isSnapshot = true) :
    s.dropSnapshot = { s.withAck 0 kd ck .ok 0 stamp with writeQ := s.writeQ.filter fun w => !w.isSnapshot } := by
  have querying : (s.proc 0).phase = some (.querying stamp) := by rw [hp]; rfl
  rw [State.dropSnapshot, querying]
  dsimp only
  rw [if_pos (by simpa using hw), State.handAck_busy _ 0 kd ck (.querying stamp) _ _ _ (by exact hp)]
  rfl

/-- Settles O9: by the state and the cause of the pair, and by FAULT. -/
theorem errorsStopThePair : Obligations.ErrorsStopThePair := by
  intro s p c d waiting stopped
  refine ⟨fun active none => ?active, fun draining none => ?draining, fun kept => ?kept, ⟨rfl, fun work => if_neg work⟩,
    s.setFault_again c d, fun none => ⟨fun quiet => ?quiet, fun kd ck stamp hp hw => ?dropped⟩⟩
  case active =>
    simp only [State.setCause, active, none]
    exact s.updPair_flushCq p _
  case draining =>
    have state : stopped .draining = stopped (s.pair p).state := by rw [draining]
    have marked : s.setCause p c = (s.updPair p fun q => { q with cause := some c }).flushCq p := by
      simp only [State.setCause, draining, none]
    rw [state, marked]
    exact s.updPair_flushCq p _
  case kept => exact s.setCause_unchanged p c (or_rotate.2 kept)
  case quiet =>
    simp only [State.setFault, none]
    exact State.dropSnapshot_none (quiet.imp_right fun clean w hw => clean w (List.mem_filter.1 hw).1)
  case dropped =>
    simp only [State.setFault, none]
    obtain ⟨w, hw, snapshot⟩ := hw
    refine State.dropSnapshot_some hp ⟨w, List.mem_filter.2 ⟨hw, ?_⟩, snapshot⟩
    rw [w.recordOf_of_isSnapshot snapshot]
    rfl

/-! ## The arbiter (R153, R154) -/

/-- How many pairs the arbiter looks at before a work pair (R154). -/
def turnsTo (last p : PairId) : Nat := (p.val + 7 - last.val) % 8

/-- The pair looked at in a turn of the round. -/
def roundPair (last : PairId) (k : Nat) : PairId := Fin.ofNat 9 ((last.val + k) % 8 + 1)

/-- A turn of the round looks at a work pair, in that turn. -/
theorem turnsTo_roundPair (last : PairId) {k : Nat} (hk : k < 8) : roundPair last k ≠ 0 ∧ turnsTo last (roundPair last k) = k := by
  have table : ∀ (last : PairId) (k : Fin 8), roundPair last k ≠ 0 ∧ turnsTo last (roundPair last k) = k := by decide
  exact table last ⟨k, hk⟩

/-- Every work pair is looked at in its turn. -/
theorem roundPair_turnsTo (last : PairId) {p : PairId} (work : p ≠ 0) : roundPair last (turnsTo last p) = p := by
  have table : ∀ last p : PairId, p ≠ 0 → roundPair last (turnsTo last p) = p := by decide
  exact table last p work

/-- The pair that the round finds is the one that asks and has the fewest turns before it (R154). -/
theorem find_roundFrom (last : PairId) (wants : PairId → Bool) {p : PairId} (work : p ≠ 0) (asks : wants p = true)
    (first : ∀ q, q ≠ 0 → wants q = true → turnsTo last p ≤ turnsTo last q) : (roundFrom last).find? wants = some p := by
  have turn (k : Nat) (hk : k < (roundFrom last).length) : (roundFrom last)[k] = roundPair last k := by
    simp [roundFrom, roundPair]
  have length : (roundFrom last).length = 8 := rfl
  have before : turnsTo last p < 8 := Nat.mod_lt _ (by decide)
  refine List.find?_eq_some_iff_getElem.2 ⟨asks, turnsTo last p, length ▸ before, ?_, fun k hk => ?_⟩
  · rw [turn, roundPair_turnsTo last work]
  · obtain ⟨other, position⟩ := turnsTo_roundPair last (hk.trans before)
    rw [turn, Bool.not_eq_true']
    refine Bool.eq_false_iff.2 fun asks' => ?_
    have := first _ other asks'
    omega

section
variable {s : State}

/-- With the engine free FETCH_GRANT serves the pair that is next (R154). -/
theorem exec_fetchGrant_some {p : PairId} (free : s.engine = none) (next : s.nextGrant = some p) :
    exec .fetchGrant s = .next (s.grant p) := by
  have meaning : exec .fetchGrant s = execFetchGrant s := rfl
  rw [meaning, execFetchGrant, free]
  dsimp only
  rw [next]

/-- With the engine free and no request FETCH_GRANT does nothing (R154). -/
theorem exec_fetchGrant_none (free : s.engine = none) (next : s.nextGrant = none) : exec .fetchGrant s = .next s := by
  have meaning : exec .fetchGrant s = execFetchGrant s := rfl
  rw [meaning, execFetchGrant, free]
  dsimp only
  rw [next]

/-- While a read is outstanding FETCH_GRANT does nothing (R154). -/
theorem exec_fetchGrant_busy {e : FetchRead} (busy : s.engine = some e) : exec .fetchGrant s = .next s := by
  have meaning : exec .fetchGrant s = execFetchGrant s := rfl
  rw [meaning, execFetchGrant, busy]

/-- The bus error of the outstanding read (R163). -/
theorem exec_fetchBusError {e : FetchRead} (h : s.engine = some e) :
    exec .fetchBusError s = .next ((s.endRead e.pair).pairError e.pair .fetchError) := by
  have meaning : exec .fetchBusError s = execFetchBusError s := rfl
  rw [meaning, execFetchBusError, h]

/-- The read that completes for a stopped pair (R148). -/
theorem exec_fetchReadDiscarded {e : FetchRead} (h : s.engine = some e) (stopped : s.stopped e.pair = true) :
    exec .fetchReadDiscarded s = .next (s.endRead e.pair) := by
  have meaning : exec .fetchReadDiscarded s = execFetchReadDiscarded s := rfl
  rw [meaning, execFetchReadDiscarded, h]
  dsimp only
  rw [if_pos stopped]

end

/-- Settles O49: the condition of a request, the choice of the round, and the two ways in which a read ends without a record. -/
theorem fetchEngineServesThePairs : Obligations.FetchEngineServesThePairs := by
  refine fun s => ⟨s.wantsFetch_iff,
    ⟨fun free => ⟨fun admin => ?admin, fun p noAdmin work asks first => ?work, fun nobody => ?nobody⟩,
    fun e busy => exec_fetchGrant_busy busy⟩, rfl, fun p addr h => ⟨?failed, fun stopped => exec_fetchReadDiscarded h stopped⟩⟩
  case admin => exact exec_fetchGrant_some free (if_pos admin)
  case work =>
    have next : s.nextGrant = some p := by
      rw [State.nextGrant, noAdmin]
      exact find_roundFrom s.lastServed s.wantsFetch work asks first
    rw [exec_fetchGrant_some free next, State.grant, if_neg work]
    rfl
  case nobody =>
    refine exec_fetchGrant_none free ?_
    rw [State.nextGrant, nobody 0]
    exact List.find?_eq_none.2 fun q _ => by simp [nobody q]
  case failed => exact exec_fetchBusError h

end Sys2Proof.Machine

namespace Sys2Proof.Machine

/-! ## Posting (R156 to R158) -/

section
variable {s : State} {p : PairId}

/-- A completion ring takes the oldest request (R156). -/
theorem exec_postCompletion {q : CqRequest} {rest : List CqRequest} (h : s.requests p = q :: rest) :
    exec (.postCompletion p) s = .next ((s.setRequests p rest).takeRequest p q) := by
  have meaning : exec (.postCompletion p) s = execPostCompletion p s := rfl
  rw [meaning, execPostCompletion, h]

/-- The notice ring takes the oldest notice (R157). -/
theorem exec_postNotice {n : Notice} {rest : List Notice} (h : s.nqReq = n :: rest) :
    exec .postNotice s = .next (({ s with nqReq := rest } : State).takeNotification n) := by
  have meaning : exec .postNotice s = execPostNotice s := rfl
  rw [meaning, execPostNotice, h]

/-- A request that is no ack is taken as a report (R156). -/
theorem State.takeRequest_report (s : State) (p : PairId) {q : CqRequest} (report : q.isAck = false) :
    s.takeRequest p q = s.takeReport p q := by
  cases q with
  | ack a => cases report
  | fire f => rfl
  | retire r => rfl

/-- A request that is an ack is taken as one (R156). -/
theorem State.takeRequest_ack (s : State) (p : PairId) {q : CqRequest} (ack : q.isAck = true) : s.takeRequest p q = s.takeAck p q := by
  cases q with
  | ack a => rfl
  | fire f => cases ack
  | retire r => cases ack

/-- A record accepted into a ring that has just been changed. -/
theorem State.updPair_acceptCq (s : State) (p : PairId) (f : Pair → Pair) (q : CqRequest) :
    (s.updPair p f).acceptCq p q = { s with
      pairs := s.pairs.set p (f (s.pair p)).accept
      writeQ := s.writeQ ++ [.record (.cq p) (f (s.pair p)).cqWrite (((f (s.pair p)).cqWrite + 1) % (f (s.pair p)).cqSize)
        (q.bytes (min 65535 (f (s.pair p)).pendLost))] } := by
  rw [State.acceptCq, State.updPair_updPair, State.updPair_pair, if_pos rfl]
  rfl

/-- An ack takes the slot reserved for it, unless its pair is stopped (R156). -/
theorem State.takeAck_present {q : CqRequest} (present : (s.pair p).state ≠ .absent) :
    s.takeAck p q = if s.stopped p = true then (s.setProc p .idle).updPair p fun q => q.unreserve.countStopped
      else ((s.setProc p .idle).updPair p Pair.unreserve).acceptCq p q := by
  have there : ((s.setProc p .idle).pair p).state ≠ .absent := present
  have stopped : (s.setProc p .idle).stopped p = s.stopped p := rfl
  rw [State.takeAck, if_neg there, stopped]

/-- A report takes a free slot or is lost (R156). -/
theorem State.takeReport_present {q : CqRequest} (present : (s.pair p).state ≠ .absent) :
    s.takeReport p q = if s.stopped p = true then s.updPair p Pair.countStopped
      else if 1 ≤ (s.pair p).free then s.acceptCq p q else s.updPair p Pair.loseReport := by
  rw [State.takeReport, if_neg present]

/-- An UNSET notice ring takes nothing (R157). -/
theorem State.takeNotification_unset {n : Notice} (unset : s.nq.state = .unset) : s.takeNotification n = s := by
  rw [State.takeNotification, unset]

/-- A notice ring in ERROR counts what it does not write (R157). -/
theorem State.takeNotification_error {n : Notice} (error : s.nq.state = .error) :
    s.takeNotification n = { s with nq := { s.nq with totLost := min (2 ^ 32 - 1) (s.nq.totLost + 1) } } := by
  rw [State.takeNotification, error]
  rfl

/-- A notice takes a free slot (R157). -/
theorem State.takeNotification_room {n : Notice} (active : s.nq.state = .active) (room : 1 ≤ s.nq.free) :
    s.takeNotification n = { s with
      nq := { s.nq with write := (s.nq.write + 1) % s.nq.size, pendLost := 0 }
      writeQ := s.writeQ ++
        [.record .nq s.nq.write ((s.nq.write + 1) % s.nq.size) (n.bytes (min 65535 s.nq.pendLost))] } := by
  rw [State.takeNotification, active]
  exact if_pos room

/-- A notice that finds no free slot is lost (R157, R158). -/
theorem State.takeNotification_full {n : Notice} (active : s.nq.state = .active) (full : s.nq.free = 0) :
    s.takeNotification n = { s with
      nq := { s.nq with pendLost := min (2 ^ 32 - 1) (s.nq.pendLost + 1), totLost := min (2 ^ 32 - 1) (s.nq.totLost + 1) } } := by
  rw [State.takeNotification, active]
  exact if_neg (by omega)

end

/-- Settles O50: an ack, a report and a notice, each by the state of its ring. -/
theorem ringsTakePostingRequests : Obligations.RingsTakePostingRequests := by
  intro s p q rest n more
  refine ⟨fun h present => ⟨fun ack => ?ack, fun report => ?report⟩, fun h absent report => ?absent, fun h => ?notice⟩
  case ack =>
    have there : ((s.setRequests p rest).pair p).state ≠ .absent := present
    have stops : (s.setRequests p rest).stopped p = s.stopped p := rfl
    rw [exec_postCompletion h, State.takeRequest_ack _ p ack, State.takeAck_present there, stops]
    refine ⟨fun goes => ?_, fun stopped => ?_⟩
    · rw [if_neg (by simp [goes]), State.updPair_acceptCq]
      rfl
    · rw [if_pos stopped]
      rfl
  case report =>
    have there : ((s.setRequests p rest).pair p).state ≠ .absent := present
    have stops : (s.setRequests p rest).stopped p = s.stopped p := rfl
    have free : ((s.setRequests p rest).pair p).free = (s.pair p).free := rfl
    rw [exec_postCompletion h, State.takeRequest_report _ p report, State.takeReport_present there, stops, free]
    refine ⟨fun goes room => ?_, fun goes full => ?_, fun stopped => ?_⟩
    · rw [if_neg (by simp [goes]), if_pos room]
      rfl
    · rw [if_neg (by simp [goes]), if_neg (by omega)]
      rfl
    · rw [if_pos stopped]
      rfl
  case absent =>
    have gone : ((s.setRequests p rest).pair p).state = .absent := absent
    rw [exec_postCompletion h, State.takeRequest_report _ p report, State.takeReport, if_pos gone]
    have same : s.pairs.set p (s.pair p) = s.pairs := Vector.set_getElem_self p.isLt
    dsimp only
    rw [same]
    rfl
  case notice =>
    rw [exec_postNotice h]
    exact ⟨fun unset => congrArg _ (State.takeNotification_unset unset), fun error => congrArg _ (State.takeNotification_error error),
      fun active room => congrArg _ (State.takeNotification_room active room),
      fun active full => congrArg _ (State.takeNotification_full active full)⟩

end Sys2Proof.Machine

namespace Sys2Proof.Machine

/-! ## The write engine (R159, R164) -/

section
variable {s : State} {ring : RingId} {slot next : Nat} {data : List Byte} {addr : W64}

/-- The bus takes the oldest write, with its address (R159). -/
theorem exec_writeIssue {w : QueuedWrite} {rest : List QueuedWrite} (free : s.onBus = none) (hw : s.writeQ = w :: rest) :
    exec .writeIssue s = .next { s with writeQ := rest, onBus := some ⟨w, s.writeAddr w, false⟩ } := by
  have meaning : exec .writeIssue s = execWriteIssue s := rfl
  rw [meaning, execWriteIssue, free, hw]

/-- The answer to a record write (R159). -/
theorem exec_recordWriteDone {stale : Bool} (h : s.onBus = some ⟨.record ring slot next data, addr, stale⟩) :
    exec .recordWriteDone s =
      .next (if stale = true then s.endWrite else { s.endWrite with writeQ := s.writeQ ++ [.tail ring next true] }) := by
  have meaning : exec .recordWriteDone s = execRecordWriteDone s := rfl
  rw [meaning, execRecordWriteDone, h]

/-- A record write that fails (R164). -/
theorem exec_recordWriteError {stale : Bool} (h : s.onBus = some ⟨.record ring slot next data, addr, stale⟩) :
    exec .recordWriteError s = .next (if stale = true ∧ ring ≠ .cq 0 then s.endWrite else s.endWrite.recordError ring) := by
  have meaning : exec .recordWriteError s = execRecordWriteError s := rfl
  rw [meaning, execRecordWriteError, h]

/-- The answer to a status block write (R159). -/
theorem exec_statusBlockWriteDone {w : QueuedWrite} {stale : Bool} (h : s.onBus = some ⟨w, addr, stale⟩)
    (status : w.isStatus = true) : exec .statusBlockWriteDone s = .next (s.endWrite.answerStatus w stale) := by
  have meaning : exec .statusBlockWriteDone s = execStatusBlockWriteDone s := rfl
  rw [meaning, execStatusBlockWriteDone, h]
  exact congrArg Host.Outcome.next (if_pos status)

/-- A status block write that fails (R164). -/
theorem exec_statusBlockWriteError {w : QueuedWrite} {stale : Bool} (h : s.onBus = some ⟨w, addr, stale⟩)
    (status : w.isStatus = true) : exec .statusBlockWriteError s = .next ((s.endWrite.answerStatus w stale).setFault .statusWrite) := by
  have meaning : exec .statusBlockWriteError s = execStatusBlockWriteError s := rfl
  rw [meaning, execStatusBlockWriteError, h]
  exact congrArg Host.Outcome.next (if_pos status)

/-- A tail write that does not publish, or whose ring is gone, moves nothing (R144, R151, R152). -/
theorem State.answerStatus_still (s : State) (ring : RingId) (v : Nat) {publishes stale : Bool} (h : publishes = false ∨ stale = true) :
    s.answerStatus (.tail ring v publishes) stale = s := by
  refine if_neg ?_
  rintro ⟨publishes, live⟩
  rcases h with h | h
  · cases publishes.symm.trans h
  · cases live.symm.trans h

/-- The two counts of a notice that is lost on the bus and of those that wait behind it saturate as one (R158, R164). -/
theorem satAdd_satAdd (limit n k l : Nat) : satAdd limit (satAdd limit n k) l = min limit (n + k + l) := by
  simp only [satAdd]
  omega

end

/-- Settles O51, answer by answer. -/
theorem writesMoveTheIndices : Obligations.WritesMoveTheIndices := by
  refine fun s => ⟨fun w rest free hw => exec_writeIssue free hw,
    fun p slot next data v publishes buffer => ⟨rfl, rfl, rfl, rfl, rfl, rfl⟩, fun ring slot next data addr h => ?record, fun p v addr stale h => ?head, fun ring v addr publishes h => ?tail,
    fun w addr h => ⟨fun ring slot next data hw => ?goneRecord, fun ring v publishes hw => ?goneTail⟩⟩
  case record =>
    have failed : exec .recordWriteError s = .next (s.endWrite.recordError ring) :=
      (exec_recordWriteError h).trans (congrArg _ (if_neg (by simp)))
    refine ⟨exec_recordWriteDone h, fun p hp => ?_, fun hn => ⟨_, failed, ?_⟩⟩
    · subst hp
      exact failed
    · subst hn
      exact ⟨rfl, rfl, satAdd_satAdd _ _ _ _, rfl⟩
  case head => exact ⟨exec_statusBlockWriteDone h rfl, exec_statusBlockWriteError h rfl⟩
  case tail =>
    rw [exec_statusBlockWriteDone h rfl, exec_statusBlockWriteError h rfl]
    cases publishes with
    | false =>
      rw [State.answerStatus_still s.endWrite ring v (.inl rfl)]
      cases ring with
      | cq p => exact ⟨rfl, rfl⟩
      | nq => exact ⟨rfl, rfl⟩
    | true =>
      cases ring with
      | cq p => exact ⟨rfl, rfl⟩
      | nq => exact ⟨rfl, rfl⟩
  case goneRecord =>
    subst hw
    refine ⟨exec_recordWriteDone h, fun other => (exec_recordWriteError h).trans (congrArg _ (if_pos ⟨rfl, other⟩)),
      fun admin => ?_⟩
    subst admin
    exact (exec_recordWriteError h).trans (congrArg _ (if_neg (by simp)))
  case goneTail =>
    subst hw
    have still := State.answerStatus_still s.endWrite ring v (publishes := publishes) (.inr rfl)
    rw [exec_statusBlockWriteDone h rfl, exec_statusBlockWriteError h rfl, still]
    exact ⟨rfl, rfl⟩

end Sys2Proof.Machine

namespace Sys2Proof.Machine

/-! ## The checks of a record (R170, R171, R190) -/

section
variable {xs ys : List (Nat × Bool)} {k : Kind} {r : Record} {ix : Nat}

/-- Checks made one after the other: the later ones count only when the earlier ones all hold. -/
theorem firstBad_append : firstBad (xs ++ ys) = (firstBad xs).or (firstBad ys) := by
  simp [firstBad, List.find?_append, Option.map_or]

/-- No check is named exactly when every check holds. -/
theorem firstBad_eq_none_iff : firstBad xs = none ↔ ∀ x ∈ xs, x.2 = true := by
  simp [firstBad]

/-- The check that is named fails, and every check before it holds. -/
theorem firstBad_eq_some_iff :
    firstBad xs = some ix ↔ ∃ before after, xs = before ++ (ix, false) :: after ∧ ∀ x ∈ before, x.2 = true := by
  rw [firstBad, Option.map_eq_some_iff]
  constructor
  · rintro ⟨⟨i, b⟩, found, rfl⟩
    obtain ⟨fails, before, after, rfl, holds⟩ := List.find?_eq_some_iff_append.1 found
    have failed : b = false := by simpa using fails
    subst failed
    exact ⟨before, after, rfl, by simpa using holds⟩
  · rintro ⟨before, after, rfl, holds⟩
    refine ⟨(ix, false), List.find?_eq_some_iff_append.2 ⟨rfl, before, after, rfl, ?_⟩, rfl⟩
    simpa using holds

/-- Every reserved field is looked at before any range (R171). -/
theorem badField_eq_firstBad : badField k r = firstBad (reservedChecks k r ++ fieldChecks k r) := by
  rw [firstBad_append, badField]
  cases firstBad (reservedChecks k r) with
  | none => rfl
  | some ix => rfl

/-- The indices of the reserved fields are those of R190, whatever the record. -/
theorem reservedChecks_indices : (reservedChecks k r).map (·.1) = 1 :: 2 :: (reservedRuns k).map (·.1) := by
  simp [reservedChecks]

/-- The reserved fields are looked at in index order. -/
theorem reservedChecks_increase : ((reservedChecks k r).map (·.1)).Pairwise (· < ·) := by
  rw [reservedChecks_indices]
  cases k <;> decide

/-- The entry fields of an ARM and of an ARM_DEFERRED are looked at in index order. -/
theorem entryChecks_increase (places : Nat) : ((entryChecks r places).map (·.1)).Pairwise (· < ·) := by
  simp [entryChecks]

/-- The ranges are looked at in index order. The fields of a channel or a slot that is turned off do not apply. -/
theorem fieldChecks_increase : ((fieldChecks k r).map (·.1)).Pairwise (· < ·) := by
  cases k with
  | arm => exact entryChecks_increase 4
  | armDeferred => exact entryChecks_increase 8
  | captureConfig | monitorConfig =>
    cases on : r.flag 0 with
    | false => simp [fieldChecks, on]
    | true => simp [fieldChecks, on]
  | _ => simp [fieldChecks]

end

/-! ## The kind of a record (R169, R192) -/

section
variable {p : PairId} {code : Byte} {k : Kind}

/-- The kinds of a ring (R192). -/
def Kind.ofRing (p : PairId) : List Kind := if p = 0 then Kind.admin else Kind.work

/-- A code names one kind of a ring at most. -/
theorem Kind.ofRing_codes_nodup (p : PairId) : ((Kind.ofRing p).map Kind.code).Nodup := by
  unfold Kind.ofRing
  split
  · decide
  · decide

/-- A code names a kind exactly when the ring has the kind and the code is the kind's own. -/
theorem Kind.onRing_eq_some_iff : Kind.onRing p code = some k ↔ code = k.code ∧ k ∈ Kind.ofRing p := by
  constructor
  · intro found
    exact ⟨(by simpa using List.find?_some found : k.code = code).symm, List.mem_of_find?_eq_some found⟩
  · rintro ⟨rfl, ofRing⟩
    cases found : Kind.onRing p k.code with
    | none => simpa using List.find?_eq_none.1 found k ofRing
    | some k' =>
      have same : k'.code = k.code := by simpa using List.find?_some found
      exact congrArg some (List.inj_on_of_nodup_map (Kind.ofRing_codes_nodup p) (List.mem_of_find?_eq_some found) ofRing same)

/-- A code names no kind exactly when it is that of no kind of the ring. -/
theorem Kind.onRing_eq_none_iff : Kind.onRing p code = none ↔ ∀ k ∈ Kind.ofRing p, code ≠ k.code := by
  rw [Kind.onRing, List.find?_eq_none]
  exact forall₂_congr fun k _ => not_congr (beq_iff_eq.trans eq_comm)

end

/-! ## A record that answers the outstanding read (R155, R169 to R171, R173) -/

section
variable {s : State} {r : Record} {k : Kind} {p : PairId}

/-- A record answers the read that is outstanding for a pair that goes on, by the kind that its byte 0 names there (R155, R169). -/
theorem State.fetchedFor_eq_some_iff : s.fetchedFor r k = some p ↔
    ∃ addr, s.engine = some ⟨p, addr⟩ ∧ s.stopped p = false ∧ Kind.onRing p (r.byte 0) = some k := by
  unfold State.fetchedFor
  constructor
  · intro h
    split at h
    · next e he =>
      split at h
      · next goes =>
        cases h
        exact ⟨e.addr, he, goes⟩
      · cases h
    · cases h
  · rintro ⟨addr, he, goes⟩
    rw [he]
    exact if_pos goes

/-- Every record command is the answer of a read, the checks of steps 1 to 3, and what its kind does past them (R170). -/
theorem exec_record {i : Instr} (h : i.record = some (k, r)) : ∃ f, exec i s = .next (s.onRecord r k f) := by
  cases i <;> cases h <;> exact ⟨_, rfl⟩

/-- A code that is of no kind of its ring is refused (R169). -/
theorem exec_badKind {addr : W64} (reads : s.engine = some ⟨p, addr⟩) (goes : s.stopped p = false)
    (unknown : Kind.onRing p (r.byte 0) = none) : exec (.badKind r) s = .next (s.recordAnswered p r .badKind 0 s.ts) := by
  have meaning : exec (.badKind r) s = execBadKind r s := rfl
  have answers : s.badKindFor r = some p := by
    rw [State.badKindFor, reads]
    exact if_pos ⟨goes, unknown⟩
  rw [meaning, execBadKind, answers]
  exact congrArg _ (s.startRecord_handAck p r .badKind 0 s.ts)

/-- A NOP is answered OK (R173). -/
theorem exec_nop (h : s.Takes r .nop p) : exec (.nop r) s = .next (s.recordAnswered p r .ok 0 s.ts) :=
  congrArg _ ((s.onRecord_takes r .nop p _ h).trans (s.startRecord_handAck p r .ok 0 s.ts))

end

/-- Settles O54: the course common to all records, the checks as one list, the codes of a ring, BAD_KIND and NOP. -/
theorem badRecordsAreRefused : Obligations.BadRecordsAreRefused := by
  refine ⟨fun i k r s p ix record fetched bad => ?refused,
    fun k r => ⟨?passes, fun ix => ?names, reservedChecks_increase, fieldChecks_increase⟩,
    fun r k s p => ?fetched, fun r s p addr reads goes unknown => ?badKind, fun r s p => exec_nop⟩
  case refused =>
    obtain ⟨f, meaning⟩ := exec_record (s := s) record
    rw [meaning, s.onRecord_badField r k p ix f fetched bad]
  case passes => rw [badField_eq_firstBad, firstBad_eq_none_iff]
  case names => rw [badField_eq_firstBad, firstBad_eq_some_iff]
  case fetched =>
    simp only [State.fetchedFor_eq_some_iff, Kind.onRing_eq_some_iff]
    rfl
  case badKind => exact exec_badKind reads goes (Kind.onRing_eq_none_iff.2 unknown)

end Sys2Proof.Machine

namespace Sys2Proof.Machine

/-! ## The state tests of ARM and ARM_DEFERRED (R174, R176) -/

/-- What follows the line test of step 5, by the mode of the line (R174, R176). -/
theorem lineTest_elim {β : Type} (l : Line) (a : AxisId) (ok : β) (refuse : Status → β) :
    (lineTest l a).elim ok refuse = match l.config with
      | .compare b _ => if b = a then ok else refuse .lineAxis
      | _ => refuse .lineMode := by
  unfold lineTest
  cases l.config with
  | disabled => rfl
  | host d => rfl
  | compare b d =>
    by_cases bound : b = a
    · simp [bound]
    · simp [bound]

section
variable {s : State} {r : Record} {p : PairId} {g : AxisConfig}

/-- An ARM at an UNCONFIGURED axis (R174). -/
theorem State.armTest_unconfigured {e : Entry} {pos : Int} (hg : (s.axis e.axis).config = none) :
    s.armTest e pos = some (.notConfigured, 0) := by
  rw [State.armTest, hg]

/-- The tests of an ARM at a configured axis, in order (R174). -/
theorem State.armTest_configured {e : Entry} {pos : Int} (hg : (s.axis e.axis).config = some g) :
    s.armTest e pos = if posOutside g.kind pos = true then some (.badField, 5)
      else if pitchTooWide g.kind e = true then some (.badField, 6)
      else (lineTest (s.line e.line) e.axis).map fun st => (st, 0) := by
  rw [State.armTest, hg]

/-- An ARM_DEFERRED at a channel that is OFF (R176). -/
theorem State.armDeferredTest_off (hc : (s.chan (r.chanAt 27)).config = none) : s.armDeferredTest r p = .inl (.lineAxis, 0) := by
  rw [State.armDeferredTest, hc]

/-- The tests of an ARM_DEFERRED at a channel of a configured axis, in order (R176). -/
theorem State.armDeferredTest_bound {c : ChanConfig} (hc : (s.chan (r.chanAt 27)).config = some c)
    (hg : (s.axis c.axis).config = some g) :
    s.armDeferredTest r p = if pitchTooWide g.kind (r.entry p c.axis) = true then .inl (.badField, 6)
      else (lineTest (s.line (r.entry p c.axis).line) c.axis).elim (.inr ⟨r.entry p c.axis, r.s32 12⟩) fun st => .inl (st, 0) := by
  rw [State.armDeferredTest, hc]
  dsimp only
  rw [hg]
  cases lineTest (s.line (r.entry p c.axis).line) c.axis with
  | none => rfl
  | some st => rfl

/-- An ARM is refused by the first test that fails, or asks for its entry (R174). -/
theorem exec_arm (h : s.Takes r .arm p) : exec (.arm r) s = .next
    ((s.armTest (r.entry p (r.axisAt 27)) (r.s32 12)).elim
      (s.recordTaken p r (.allocateArm (r.entry p (r.axisAt 27)) (r.s32 12)))
      fun refusal => s.recordAnswered p r refusal.1 refusal.2 s.ts) := by
  refine congrArg _ ((s.onRecord_takes r .arm p _ h).trans ?_)
  have same : (s.startRecord p r).armTest (r.entry p (r.axisAt 27)) (r.s32 12) =
    s.armTest (r.entry p (r.axisAt 27)) (r.s32 12) := rfl
  dsimp only
  rw [same]
  cases s.armTest (r.entry p (r.axisAt 27)) (r.s32 12) with
  | none => exact s.startRecord_setPhase p r _
  | some refusal => exact s.startRecord_handAck p r refusal.1 refusal.2 s.ts

/-- An ARM_DEFERRED is refused by the first test that fails, or asks for its entry (R176). -/
theorem exec_armDeferred (h : s.Takes r .armDeferred p) : exec (.armDeferred r) s = .next
    ((s.armDeferredTest r p).elim (fun refusal => s.recordAnswered p r refusal.1 refusal.2 s.ts)
      fun w => s.recordTaken p r (.allocateDeferred w (r.chanAt 27) (r.flag 1))) := by
  refine congrArg _ ((s.onRecord_takes r .armDeferred p _ h).trans ?_)
  have same : (s.startRecord p r).armDeferredTest r p = s.armDeferredTest r p := rfl
  rw [same]
  cases s.armDeferredTest r p with
  | inl refusal => exact s.startRecord_handAck p r refusal.1 refusal.2 s.ts
  | inr w => exact s.startRecord_setPhase p r _

/-! ## CANCEL, LINE_WRITE and BARRIER (R177 to R179) -/

/-- A CANCEL goes on to its removals (R177). -/
theorem exec_cancel (h : s.Takes r .cancel p) : exec (.cancel r) s =
    .next (s.recordTaken p r (.cancelling r.cancelScope r.restriction (removalOf r.restriction))) :=
  congrArg _ ((s.onRecord_takes r .cancel p _ h).trans (s.startRecord_setPhase p r _))

/-- A LINE_WRITE goes on to its line (R178). -/
theorem exec_lineWrite (h : s.Takes r .lineWrite p) : exec (.lineWrite r) s =
    .next (s.recordTaken p r (.writing (r.lineAt 8) (actionOf (r.u8 9) (r.u32 12) (r.u8 10)))) :=
  congrArg _ ((s.onRecord_takes r .lineWrite p _ h).trans (s.startRecord_setPhase p r _))

/-- A record that begins at an idle processor changes no live entry. -/
theorem State.startRecord_liveEntries (idle : s.proc p = .idle) : (s.startRecord p r).liveEntries = s.liveEntries := by
  have begun : (s.startRecord p r).liveEntries = (s.setProc p (.busy (r.byte 0) r.cookie .acked)).liveEntries := rfl
  have pending := s.setProc_pendingEntries p (.busy (r.byte 0) r.cookie .acked) (by rw [idle]; rfl)
  rw [begun, State.liveEntries, pending]
  rfl

/-- A BARRIER is answered at once when nothing live lies in its scope, and waits otherwise (R179). -/
theorem exec_barrier (h : s.Takes r .barrier p) (idle : s.proc p = .idle) : exec (.barrier r) s = .next
    (if s.liveIn p r.barrierScope = 0 then s.recordAnswered p r .ok 0 s.ts
    else s.recordTaken p r
      (.waiting ⟨r.barrierScope, s.liveIn p r.barrierScope, barrierDeadline s.ts (r.u32 8), false, []⟩)) := by
  refine congrArg _ ((s.onRecord_takes r .barrier p _ h).trans ?_)
  have same : (s.startRecord p r).liveIn p r.barrierScope = s.liveIn p r.barrierScope := by
    rw [State.liveIn, State.startRecord_liveEntries idle, State.liveIn]
  dsimp only
  rw [same, State.startRecord_ts, State.startRecord_handAck, State.startRecord_setPhase]

end

/-- Settles O55: ARM and ARM_DEFERRED test by test, and the three records that have no test of the state. -/
theorem workRecordsGoOn : Obligations.WorkRecordsGoOn := by
  intro s r p refused lined
  refine ⟨fun h => ⟨fun hg => ?armUnconfigured, fun g hg => ?arm⟩, fun h => ⟨fun hc => ?deferredOff, fun c g hc hg => ?deferred⟩,
    fun h => ?cancel, exec_lineWrite, fun h idle => exec_barrier h idle⟩
  case armUnconfigured => rw [exec_arm h, State.armTest_unconfigured hg]; rfl
  case arm =>
    rw [exec_arm h, State.armTest_configured hg]
    split
    · rfl
    · split
      · rfl
      · refine Eq.trans ?_ (lineTest_elim (s.line _) _ _ fun st => refused st 0)
        cases lineTest (s.line (r.entry p (r.axisAt 27)).line) (r.entry p (r.axisAt 27)).axis with
        | none => rfl
        | some st => rfl
  case deferredOff => rw [exec_armDeferred h, State.armDeferredTest_off hc]; rfl
  case deferred =>
    intro e
    rw [exec_armDeferred h, State.armDeferredTest_bound hc hg]
    split
    · rfl
    · refine Eq.trans ?_ (lineTest_elim (s.line e.line) c.axis _ fun st => refused st 0)
      cases lineTest (s.line e.line) c.axis with
      | none => rfl
      | some st => rfl
  case cancel =>
    rw [exec_cancel h]
    simp [removalOf, allChannels]

end Sys2Proof.Machine

namespace Sys2Proof.Machine

/-! ## The live entries, counted block by block (R40, R47, R48) -/

/-- A sum in which one term has changed. -/
theorem sum_of_one {ι : Type} [Fintype ι] [DecidableEq ι] (i : ι) (g h : ι → Nat) (other : ∀ j, j ≠ i → h j = g j) :
    (∑ j, h j) + g i = (∑ j, g j) + h i := by
  have rest : ∑ j ∈ Finset.univ.erase i, h j = ∑ j ∈ Finset.univ.erase i, g j :=
    Finset.sum_congr rfl fun j hj => other j (Finset.ne_of_mem_erase hj)
  have before := Finset.add_sum_erase _ g (Finset.mem_univ i)
  have after := Finset.add_sum_erase _ h (Finset.mem_univ i)
  omega

/-- The entries that the blocks of a kind hold, counted block by block. -/
theorem countP_flatMap_blocks {α : Type} {n : Nat} (v : Vector α n) (f : α → List Entry) (P : Entry → Bool) :
    (v.toList.flatMap f).countP P = ∑ i : Fin n, (f v[i]).countP P := by
  have listed : v.toList = List.ofFn fun i : Fin n => v[i] := by
    rw [← Vector.toList_ofFn]
    congr 1
    ext i hi
    simp
  rw [listed, List.countP_flatMap, List.map_ofFn, List.sum_ofFn]
  rfl

section
variable (s : State) (P : Entry → Bool)

/-- The live entries with a property that a list holds: the armed ones, and those of its activations. -/
def CList.tally (l : CList) (P : Entry → Bool) : Nat := l.armed.countP P + l.held.countP P

/-- The live entries with a property at the lists and the channels. -/
def State.tally : Nat := (∑ a, (s.clist a).tally P) + ∑ c, (s.chan c).waiting.countP P

/-- The entries that records in progress hold. -/
def State.atRecords : List Entry := s.procs.toList.flatMap Proc.held

/-- A live entry is at a list, at a channel or at a record in progress. -/
theorem State.liveEntries_countP : s.liveEntries.countP P = s.tally P + s.atRecords.countP P := by
  have lists (f : CList → List Entry) : (s.lists.toList.flatMap f).countP P = ∑ a, (f (s.clist a)).countP P :=
    countP_flatMap_blocks s.lists f P
  have channels : (s.channels.toList.flatMap Channel.waiting).countP P = ∑ c, (s.chan c).waiting.countP P :=
    countP_flatMap_blocks s.channels _ P
  simp only [State.liveEntries, State.armedEntries, State.waitingEntries, State.pendingEntries, State.atRecords, State.tally,
    CList.tally, List.countP_append, lists, channels, Finset.sum_add_distrib]
  omega

/-- One list has changed. -/
theorem State.updList_tally (a : AxisId) (f : CList → CList) :
    (s.updList a f).tally P + (s.clist a).tally P = s.tally P + (f (s.clist a)).tally P := by
  have changed := sum_of_one (ι := AxisId) a (fun b => (s.clist b).tally P) (fun b => ((s.updList a f).clist b).tally P)
    fun b hb => by simp [Ne.symm hb]
  have here : (s.updList a f).clist a = f (s.clist a) := by simp
  simp only [here] at changed
  simp only [State.tally, State.updList_chan]
  omega

/-- One channel has changed. -/
theorem State.updChan_tally (c : ChanId) (f : Channel → Channel) :
    (s.updChan c f).tally P + (s.chan c).waiting.countP P = s.tally P + (f (s.chan c)).waiting.countP P := by
  have changed := sum_of_one (ι := ChanId) c (fun b => (s.chan b).waiting.countP P) (fun b => ((s.updChan c f).chan b).waiting.countP P)
    fun b hb => by simp [Ne.symm hb]
  have here : (s.updChan c f).chan c = f (s.chan c) := by simp
  simp only [here] at changed
  simp only [State.tally, State.updChan_clist]
  omega

end

/-- What a list holds depends on its entries and its activations alone. -/
theorem CList.tally_congr {l l' : CList} (entries : l'.entries = l.entries) (activations : l'.activations = l.activations)
    (P : Entry → Bool) : l'.tally P = l.tally P := by
  simp only [CList.tally, CList.armed, CList.held, entries, activations]

/-! ## The books of the entries -/

/-- The books are kept: with `loose` the live entries that stand at no list and no channel, the free and the live entries add up to 2048,
the live counts and the reference counts are right, a batch holds entries of its owner, an ABSENT pair has no quota, and a line to which
an action is on its way is named by an armed entry or by one of `fired`, which are leaving their list (R40, R47, R48, R94, R107). -/
structure State.Books (s : State) (loose fired : List Entry) : Prop where
  free : s.pool.free + (s.tally (fun _ => true) + loose.length) = 2048
  live : ∀ p : PairId, s.pool.live[p] = (s.tally fun e => e.owner == p) + loose.countP fun e => e.owner == p
  quota : ∀ p : PairId, s.pool.live[p] ≤ s.pool.quota[p]
  refs : ∀ n, (s.line n).refCount = (s.tally fun e => e.line == n) + loose.countP fun e => e.line == n
  batches : ∀ c, ∀ b ∈ (s.chan c).batches, ∀ w ∈ b.entries, w.entry.owner = b.owner
  absent : ∀ p : PairId, (s.pair p).state = .absent → s.pool.quota[p] = 0
  actions : ∀ n, (s.line n).fromList ≠ [] → ∃ e, (e ∈ fired ∨ ∃ a, e ∈ (s.clist a).armed) ∧ e.line = n

/-- Every record asks for entries of its own pair, and holds such (R168). -/
def State.AsksOwn (s : State) : Prop := ∀ p, ∀ e ∈ (s.proc p).entry, e.owner = p

theorem State.mem_armedEntries_iff (s : State) (e : Entry) : e ∈ s.armedEntries ↔ ∃ a, e ∈ (s.clist a).armed := by
  simp only [State.armedEntries, List.mem_flatMap, Vector.mem_toList_iff, Vector.mem_iff_getElem]
  constructor
  · rintro ⟨_, ⟨i, hi, rfl⟩, he⟩
    exact ⟨⟨i, hi⟩, he⟩
  · rintro ⟨a, he⟩
    exact ⟨_, ⟨a.val, a.isLt, rfl⟩, he⟩

/-- The entries are accounted for when the books are kept with the entries of the records in progress loose, and each record asks for
its own. -/
theorem State.entriesCounted_iff (s : State) : s.EntriesCounted ↔ s.Books s.atRecords [] ∧ s.AsksOwn := by
  have length : s.liveEntries.length = s.tally (fun _ => true) + s.atRecords.length := by
    rw [← List.countP_true, s.liveEntries_countP, List.countP_true]
  simp only [State.EntriesCounted, length, s.liveEntries_countP, s.mem_armedEntries_iff]
  constructor
  · rintro ⟨free, live, quota, refs, asks, batches, absent, actions⟩
    exact ⟨⟨free, live, quota, refs, batches, absent, fun n hn => by simpa using actions n hn⟩, asks⟩
  · rintro ⟨⟨free, live, quota, refs, batches, absent, actions⟩, asks⟩
    exact ⟨free, live, quota, refs, asks, batches, absent, fun n hn => by simpa using actions n hn⟩

end Sys2Proof.Machine

namespace Sys2Proof.Machine

/-- The live count of a pair once an entry has been released. -/
theorem live_of_release (live : Vector Nat 9) (p q : PairId) :
    (live.set p (live[p] - 1))[q] = live[q] - if p = q then 1 else 0 := by
  by_cases own : p = q
  · subst own; simp
  · have other : p.val ≠ q.val := fun e => own (Fin.ext e)
    simp [own, Vector.getElem_set_ne _ _ other]

/-- The live count of a pair once an entry has been allocated. -/
theorem live_of_allocate (live : Vector Nat 9) (p q : PairId) :
    (live.set p (live[p] + 1))[q] = live[q] + if p = q then 1 else 0 := by
  by_cases own : p = q
  · subst own; simp
  · have other : p.val ≠ q.val := fun e => own (Fin.ext e)
    simp [own, Vector.getElem_set_ne _ _ other]

@[simp] theorem State.release_tally (s : State) (e : Entry) (P : Entry → Bool) : (s.release e).tally P = s.tally P := by
  simp [State.tally]

namespace State.Books

variable {s t : State} {loose loose' fired fired' : List Entry} {e : Entry}

/-- Entries have gone from one place to another, and no count has changed. -/
theorem moved (h : s.Books loose fired) (pool : t.pool = s.pool) (refs : ∀ n, (t.line n).refCount = (s.line n).refCount)
    (tally : ∀ P, t.tally P + loose'.countP P = s.tally P + loose.countP P)
    (batches : ∀ c, ∀ b ∈ (t.chan c).batches, ∀ w ∈ b.entries, w.entry.owner = b.owner)
    (absent : ∀ p, (t.pair p).state = .absent → (s.pair p).state = .absent)
    (actions : ∀ n, (t.line n).fromList ≠ [] → ∃ e, (e ∈ fired' ∨ ∃ a, e ∈ (t.clist a).armed) ∧ e.line = n) :
    t.Books loose' fired' where
  free := by
    have all : (t.tally fun _ => true) + loose'.length = (s.tally fun _ => true) + loose.length := by
      simpa using tally fun _ => true
    rw [pool, all, h.free]
  live p := by rw [pool, tally, h.live]
  quota p := by rw [pool]; exact h.quota p
  refs n := by rw [refs, tally, h.refs]
  batches := batches
  absent p hp := by rw [pool]; exact h.absent p (absent p hp)
  actions := actions

/-- An entry that stands nowhere may change in all but its owner and its line. -/
theorem alter (h : s.Books (e :: loose) (e :: fired)) {e' : Entry} (owner : e'.owner = e.owner) (line : e'.line = e.line) :
    s.Books (e' :: loose) (e' :: fired) where
  free := h.free
  live p := by rw [h.live, List.countP_cons, List.countP_cons, owner]
  quota := h.quota
  refs n := by rw [h.refs, List.countP_cons, List.countP_cons, line]
  batches := h.batches
  absent := h.absent
  actions n hn := by
    obtain ⟨x, hx | hx, rfl⟩ := h.actions n hn
    · rcases List.mem_cons.1 hx with rfl | hx
      · exact ⟨e', .inl List.mem_cons_self, line⟩
      · exact ⟨x, .inl (List.mem_cons_of_mem _ hx), rfl⟩
    · exact ⟨x, .inr hx, rfl⟩

/-- More entries may count as leaving their list. -/
theorem more (h : s.Books loose fired) (sub : ∀ x ∈ fired, x ∈ fired') : s.Books loose fired' :=
  h.moved rfl (fun _ => rfl) (fun _ => rfl) h.batches (fun _ => id) fun n hn =>
    (h.actions n hn).imp fun _ => And.imp_left (Or.imp_left (sub _))

/-! ### Lines -/

/-- A line changes, but for its reference count, and no action comes to it that had none. -/
theorem updLine (h : s.Books loose fired) (n : LineId) (f : Line → Line) (refs : (f (s.line n)).refCount = (s.line n).refCount)
    (actions : (f (s.line n)).fromList ≠ [] → (s.line n).fromList ≠ []) : (s.updLine n f).Books loose fired := by
  refine h.moved rfl (fun k => ?_) (fun _ => rfl) h.batches (fun _ => id) fun k hk => h.actions k ?_
  · rw [State.updLine_line]
    split
    · next same => subst same; exact refs
    · rfl
  · rw [State.updLine_line] at hk
    split at hk
    · next same => subst same; exact actions hk
    · exact hk

/-- An action is sent to the line of an entry that is leaving its list (R60). -/
theorem sendAction (h : s.Books loose fired) (he : e ∈ fired) (a : FireAction) : (s.sendAction e.line a).Books loose fired := by
  refine h.moved rfl (fun k => ?_) (fun _ => rfl) h.batches (fun _ => id) fun k hk => ?_
  · rw [State.sendAction, State.updLine_line]
    split
    · next same => subst same; rfl
    · rfl
  · rw [State.sendAction, State.updLine_line] at hk
    split at hk
    · next same => exact ⟨e, .inl he, same⟩
    · exact h.actions k hk

/-! ### Releases (R45) -/

/-- The release of an entry that stands nowhere. -/
theorem release (h : s.Books (e :: loose) fired) : (s.release e).Books loose fired where
  free := by
    have := h.free
    rw [State.release_pool, State.release_tally]
    simp only [List.length_cons] at this ⊢
    omega
  live p := by
    have counted := h.live p
    rw [List.countP_cons] at counted
    rw [State.release_tally, State.release_pool]
    simp only [live_of_release, counted, beq_iff_eq]
    omega
  quota p := by
    rw [State.release_pool]
    simp only [live_of_release]
    exact (Nat.sub_le _ _).trans (h.quota p)
  refs n := by
    have counted := h.refs n
    rw [List.countP_cons] at counted
    rw [State.release_tally, State.release_line]
    by_cases own : e.line = n
    · simp only [own, beq_self_eq_true, if_true] at counted ⊢
      omega
    · simpa [own] using counted
  batches := by simpa using h.batches
  absent p hp := h.absent p (by simpa using hp)
  actions n hn := by
    rw [State.release_line] at hn
    simp only [State.release_clist]
    refine h.actions n ?_
    split at hn
    · exact hn
    · exact hn

/-- The retirement at a list of an entry that has left it: its line takes the actions that wait for it first (R107). -/
theorem retire (h : s.Books (e :: loose) (e :: fired)) : (s.retire e).Books loose fired := by
  refine release ⟨h.free, h.live, h.quota, fun n => ?_, h.batches, h.absent, fun n hn => ?_⟩
  · rw [State.updLine_line]
    split
    · next same => subst same; exact (Line.actAll_refCount _).trans (h.refs _)
    · exact h.refs n
  · rw [State.updLine_line] at hn
    split at hn
    · simp at hn
    · next other =>
      obtain ⟨x, hx, line⟩ := h.actions n hn
      refine ⟨x, hx.imp_left fun mem => (List.mem_cons.1 mem).resolve_left fun same => ?_, line⟩
      exact other (same ▸ line)

/-- The releases of several entries. -/
theorem releaseAll (gone : List Entry) (h : s.Books (gone ++ loose) fired) : (s.releaseAll gone).Books loose fired := by
  induction gone generalizing s with
  | nil => exact h
  | cons e gone ih => exact ih (release h)

/-- The retirements of several entries. -/
theorem retireAll (gone : List Entry) (h : s.Books (gone ++ loose) (gone ++ fired)) : (s.retireAll gone).Books loose fired := by
  induction gone generalizing s with
  | nil => exact h
  | cons e gone ih => exact ih (retire h)

end State.Books
end Sys2Proof.Machine

namespace Sys2Proof.Machine

/-! ### What a list holds after an entry has come or gone -/

/-- An entry taken off a list (R60). -/
theorem CList.remove_tally (l : CList) (x : Armed) (hx : x ∈ l.entries) (P : Entry → Bool) :
    (l.remove x).tally P + [x.entry].countP P = l.tally P := by
  have armed := ((List.perm_cons_erase hx).map fun y => y.entry).countP_eq P
  simp only [List.map_cons, List.countP_cons] at armed
  simp only [CList.tally, CList.armed, CList.held, CList.remove, List.countP_singleton, armed]
  omega

/-- An entry placed on a list (R55). -/
theorem CList.place_tally (l : CList) (e : Entry) (pos : Int) (order : Option Nat) (P : Entry → Bool) :
    (l.place e pos order).tally P = l.tally P + [e].countP P := by
  have armed (o : Nat) := ((insertArmed_perm ⟨e, pos, o⟩ l.entries).map fun y => y.entry).countP_eq P
  simp only [List.map_cons, List.countP_cons] at armed
  cases order with
  | none =>
    simp only [CList.tally, CList.armed, CList.held, CList.place, List.countP_singleton, armed]
    omega
  | some o =>
    simp only [CList.tally, CList.armed, CList.held, CList.place, List.countP_singleton, armed]
    omega

/-- An entry placed on a list is armed there, and what was armed there still is. -/
theorem CList.mem_place_armed (l : CList) (e x : Entry) (pos : Int) (order : Option Nat) :
    x ∈ (l.place e pos order).armed ↔ x = e ∨ x ∈ l.armed := by
  have armed (o : Nat) := ((insertArmed_perm ⟨e, pos, o⟩ l.entries).map fun y => y.entry).mem_iff (a := x)
  cases order with
  | none => exact (armed _).trans List.mem_cons
  | some o => exact (armed _).trans List.mem_cons

namespace State.Books

variable {s t : State} {loose loose' fired fired' : List Entry} {e : Entry}

/-- A list changes: what has left it is loose, and what was armed there or leaving is armed there or leaving. -/
theorem updList (h : s.Books loose fired) (a : AxisId) (f : CList → CList)
    (tally : ∀ P, (f (s.clist a)).tally P + loose'.countP P = (s.clist a).tally P + loose.countP P)
    (armed : ∀ x ∈ (s.clist a).armed, x ∈ fired' ∨ x ∈ (f (s.clist a)).armed)
    (leaving : ∀ x ∈ fired, x ∈ fired' ∨ x ∈ (f (s.clist a)).armed) : (s.updList a f).Books loose' fired' := by
  refine h.moved rfl (fun _ => rfl) (fun P => ?_) h.batches (fun _ => id) fun n hn => ?_
  · have changed := s.updList_tally P a f
    have counts := tally P
    omega
  · have here : (s.updList a f).clist a = f (s.clist a) := by simp
    obtain ⟨x, hx, line⟩ := h.actions n hn
    refine ⟨x, ?_, line⟩
    rcases hx with hx | ⟨b, hx⟩
    · exact (leaving x hx).imp_right fun mem => ⟨a, here ▸ mem⟩
    · by_cases same : a = b
      · subst same
        exact (armed x hx).imp_right fun mem => ⟨a, here ▸ mem⟩
      · exact .inr ⟨b, by simpa [same] using hx⟩

/-- An entry is taken off its list to fire (R60). -/
theorem takeOff (h : s.Books loose fired) (a : AxisId) (x : Armed) (hx : x ∈ (s.clist a).entries) :
    (s.updList a fun l => l.remove x).Books (x.entry :: loose) (x.entry :: fired) := by
  refine h.updList a _ (fun P => ?_) (fun y hy => ?_) fun y hy => .inl (List.mem_cons_of_mem _ hy)
  · have removed := (s.clist a).remove_tally x hx P
    rw [List.countP_cons]
    rw [List.countP_singleton] at removed
    omega
  · have split := ((List.perm_cons_erase hx).map fun y => y.entry).mem_iff.1 hy
    rcases List.mem_cons.1 split with rfl | rest
    · exact .inl List.mem_cons_self
    · exact .inr rest

/-- An entry that stands nowhere is placed on a list (R58, R64). -/
theorem place (h : s.Books (e :: loose) (e :: fired)) (a : AxisId) (pos : Int) (order : Option Nat) :
    (s.updList a fun l => l.place e pos order).Books loose fired := by
  refine h.updList a _ (fun P => ?_) (fun y hy => ?_) fun y hy => ?_
  · have placed := (s.clist a).place_tally e pos order P
    rw [List.countP_singleton] at placed
    rw [List.countP_cons]
    omega
  · exact .inr ((CList.mem_place_armed ..).2 (.inr hy))
  · rcases List.mem_cons.1 hy with rfl | rest
    · exact .inr ((CList.mem_place_armed ..).2 (.inl rfl))
    · exact .inl rest

/-- A removal takes the entries that it reaches off their list and retires them (R76, R77). -/
theorem removeArmed (h : s.Books loose fired) (a : AxisId) (reaches : Entry → Bool) : (s.removeArmed a reaches).Books loose fired := by
  have split : ((s.clist a).entries.filter (fun x => reaches x.entry) ++
      (s.clist a).entries.filter fun x => !reaches x.entry).Perm (s.clist a).entries :=
    List.filter_append_perm ..
  have armed := split.map fun x => x.entry
  rw [List.map_append] at armed
  refine retireAll _ (h.updList a _ (fun P => ?_) (fun x hx => ?_) fun x hx => .inl (List.mem_append_right _ hx))
  · have counts := armed.countP_eq P
    rw [List.countP_append] at counts
    simp only [CList.tally, CList.armed, CList.held, List.countP_append] at counts ⊢
    omega
  · rcases List.mem_append.1 (armed.mem_iff.2 hx) with gone | kept
    · exact .inl (List.mem_append_left _ gone)
    · exact .inr kept

/-! ### Fires (R60 to R67) -/

/-- A report leaves the books alone. -/
theorem handReport (h : s.Books loose fired) (p : PairId) (q : CqRequest) : (s.handReport p q).Books loose fired :=
  h.moved rfl (fun _ => rfl) (fun _ => rfl) h.batches (fun _ => id) h.actions

/-- A RETIRE report leaves the books alone. -/
theorem reportRetire (h : s.Books loose fired) (x : Entry) (reason : Reason) (pos : Int) (serial stamp : Nat) :
    (s.reportRetire x reason pos serial stamp).Books loose fired := by
  unfold State.reportRetire
  split
  · exact h.handReport ..
  · exact h

/-- The repeat advance of an entry that stands nowhere (R64 to R66). -/
theorem advance (h : s.Books (e :: loose) (e :: fired)) (a : AxisId) (k : AxisKind) (order : Option Nat) (f : FirePoint) :
    (s.advance a k e order f).Books loose fired := by
  unfold State.advance
  split
  · exact retire (h.reportRetire ..)
  · split
    · exact retire (h.reportRetire ..)
    · exact place (e := { e with repeatLeft := e.repeatLeft - 1 }) (alter h rfl rfl) a _ order

/-- The fire of an entry that stands nowhere (R60). -/
theorem fire (h : s.Books (e :: loose) (e :: fired)) (a : AxisId) (k : AxisKind) (order : Option Nat) (f : FirePoint) (reports : Bool) :
    (s.fire a k e order f reports).Books loose fired := by
  have sent := h.sendAction List.mem_cons_self ⟨e.action, f.serial, f.stamp⟩
  have finish (u : State) (hu : u.Books (e :: loose) (e :: fired)) : (if e.repeatLeft = 0
      then u.retire { e with occurrence := satAdd 65535 e.occurrence 1 }
      else u.advance a k { e with occurrence := satAdd 65535 e.occurrence 1 } order f).Books loose fired := by
    have told : u.Books ({ e with occurrence := satAdd 65535 e.occurrence 1 } :: loose)
        ({ e with occurrence := satAdd 65535 e.occurrence 1 } :: fired) := alter hu rfl rfl
    split
    · exact retire told
    · exact advance told a k order f
  unfold State.fire
  refine finish _ ?_
  split
  · exact sent.handReport ..
  · exact sent

end State.Books

/-! ### The fires of a count event (R59) -/

/-- A fire takes nothing off a list. -/
theorem State.fire_entries (s : State) (a b : AxisId) (k : AxisKind) (e : Entry) (order : Option Nat) (f : FirePoint) (reports : Bool) :
    (s.clist b).entries.Subperm ((s.fire a k e order f reports).clist b).entries := by
  have advanced (u : State) (e : Entry) : (u.clist b).entries.Subperm ((u.advance a k e order f).clist b).entries := by
    unfold State.advance
    split
    · simp [List.Subperm.refl]
    · split
      · simp [List.Subperm.refl]
      · rw [State.updList_clist]
        split
        · next same =>
          subst same
          have longer (x : Armed) : (u.clist a).entries.Subperm (insertArmed x (u.clist a).entries) :=
            (List.sublist_cons_self x _).subperm.trans (insertArmed_perm x _).symm.subperm
          cases order with
          | none => exact longer _
          | some o => exact longer _
        · exact List.Subperm.refl _
  unfold State.fire
  dsimp only
  split
  · split <;> simp [State.sendAction, List.Subperm.refl]
  · refine List.Subperm.trans ?_ (advanced _ _)
    split <;> simp [State.sendAction, List.Subperm.refl]

namespace State.Books

variable {s : State} {loose fired : List Entry}

/-- The fires of a count event, one after another (R59). -/
theorem fireAll (g : AxisKind) (k : Count) (a : AxisId) (xs : List Armed) (h : s.Books loose fired)
    (on : xs.Subperm (s.clist a).entries) : (xs.foldl (State.fireArmed a g k) s).Books loose fired := by
  induction xs generalizing s with
  | nil => exact h
  | cons x xs ih =>
    have here : x ∈ (s.clist a).entries := on.subset List.mem_cons_self
    refine ih ((h.takeOff a x here).fire a g _ _ true) ?_
    refine List.Subperm.trans ?_ (State.fire_entries _ a a g x.entry _ _ true)
    have left : ((s.updList a fun l => l.remove x).clist a).entries = (s.clist a).entries.erase x := by simp [CList.remove]
    rw [left]
    have rest := on.erase x
    rwa [List.erase_cons_head] at rest

end State.Books
end Sys2Proof.Machine

namespace Sys2Proof.Machine

/-! ## What the books are about -/

/-- What the books of the entries speak of: the pool, what stands at each list and channel, the counts and the waiting actions of the
lines, the ABSENT pairs, and the entries of the records in progress. -/
structure Ledger where
  pool : Pool
  entries : AxisId → List Armed
  activations : AxisId → List Activation
  batches : ChanId → List Batch
  refs : LineId → Nat
  actions : LineId → List FireAction
  absent : PairId → Bool
  asked : PairId → List Entry
  held : PairId → List Entry

/-- The ledger of a state. -/
def State.ledger (s : State) : Ledger where
  pool := s.pool
  entries := fun a => (s.clist a).entries
  activations := fun a => (s.clist a).activations
  batches := fun c => (s.chan c).batches
  refs := fun n => (s.line n).refCount
  actions := fun n => (s.line n).fromList
  absent := fun p => decide ((s.pair p).state = .absent)
  asked := fun p => (s.proc p).entry
  held := fun p => (s.proc p).held

/-- Books kept in one state are kept in every state of the same ledger. -/
theorem State.Books.of_ledger {s t : State} (same : t.ledger = s.ledger) {loose fired : List Entry} (h : s.Books loose fired) :
    t.Books loose fired := by
  have entries (a : AxisId) : (t.clist a).entries = (s.clist a).entries := congrFun (congrArg Ledger.entries same) a
  have activations (a : AxisId) : (t.clist a).activations = (s.clist a).activations := congrFun (congrArg Ledger.activations same) a
  have batches (c : ChanId) : (t.chan c).batches = (s.chan c).batches := congrFun (congrArg Ledger.batches same) c
  have absent (p : PairId) : decide ((t.pair p).state = .absent) = decide ((s.pair p).state = .absent) :=
    congrFun (congrArg Ledger.absent same) p
  refine h.moved (congrArg Ledger.pool same) (congrFun (congrArg Ledger.refs same)) (fun P => ?_) (fun c => ?_) (fun p hp => ?_)
    fun n hn => ?_
  · have lists (a : AxisId) : (t.clist a).tally P = (s.clist a).tally P := CList.tally_congr (entries a) (activations a) P
    simp only [State.tally, Channel.waiting, lists, batches]
  · rw [batches]; exact h.batches c
  · exact of_decide_eq_true ((absent p).symm.trans (decide_eq_true hp))
  · have same : (t.line n).fromList = (s.line n).fromList := congrFun (congrArg Ledger.actions same) n
    rw [same] at hn
    simpa only [CList.armed, entries] using h.actions n hn

/-- The ledger of a state, part by part. -/
theorem State.ledger_eq {s t : State} (pool : t.pool = s.pool)
    (lists : ∀ a, (t.clist a).entries = (s.clist a).entries ∧ (t.clist a).activations = (s.clist a).activations)
    (batches : ∀ c, (t.chan c).batches = (s.chan c).batches)
    (lines : ∀ n, (t.line n).refCount = (s.line n).refCount ∧ (t.line n).fromList = (s.line n).fromList)
    (absent : ∀ p, (t.pair p).state = .absent ↔ (s.pair p).state = .absent)
    (desks : ∀ p, (t.proc p).entry = (s.proc p).entry ∧ (t.proc p).held = (s.proc p).held) : t.ledger = s.ledger := by
  simp only [State.ledger, pool, fun a => (lists a).1, fun a => (lists a).2, batches, fun n => (lines n).1, fun n => (lines n).2, absent,
    fun p => (desks p).1, fun p => (desks p).2]

section
variable (s : State)

/-! The updates of one block -/

@[simp] theorem State.updAxis_ledger (a : AxisId) (f : Axis → Axis) : (s.updAxis a f).ledger = s.ledger := rfl
@[simp] theorem State.updSlot_ledger (m : SlotId) (f : Slot → Slot) : (s.updSlot m f).ledger = s.ledger := rfl
@[simp] theorem State.handReport_ledger (p : PairId) (q : CqRequest) : (s.handReport p q).ledger = s.ledger := rfl
@[simp] theorem State.handNotice_ledger (n : Notice) : (s.handNotice n).ledger = s.ledger := rfl
@[simp] theorem State.setRequests_ledger (p : PairId) (l : List CqRequest) : (s.setRequests p l).ledger = s.ledger := rfl
@[simp] theorem State.sendHold_ledger (a : AxisId) (c : Cause) : (s.sendHold a c).ledger = s.ledger := rfl

/-- A change of a list that leaves its entries and its activations alone. -/
theorem State.updList_ledger (a : AxisId) (f : CList → CList) (entries : (f (s.clist a)).entries = (s.clist a).entries)
    (activations : (f (s.clist a)).activations = (s.clist a).activations) : (s.updList a f).ledger = s.ledger := by
  refine State.ledger_eq rfl (fun b => ?_) (fun _ => rfl) (fun _ => ⟨rfl, rfl⟩) (fun _ => Iff.rfl) fun _ => ⟨rfl, rfl⟩
  rw [State.updList_clist]
  split
  · next same => subst same; exact ⟨entries, activations⟩
  · exact ⟨rfl, rfl⟩

/-- A change of a channel that leaves its batches alone. -/
theorem State.updChan_ledger (c : ChanId) (f : Channel → Channel) (batches : (f (s.chan c)).batches = (s.chan c).batches) :
    (s.updChan c f).ledger = s.ledger := by
  refine State.ledger_eq rfl (fun _ => ⟨rfl, rfl⟩) (fun d => ?_) (fun _ => ⟨rfl, rfl⟩) (fun _ => Iff.rfl) fun _ => ⟨rfl, rfl⟩
  rw [State.updChan_chan]
  split
  · next same => subst same; exact batches
  · rfl

/-- A change of a line that leaves its reference count and the actions sent to it alone. -/
theorem State.updLine_ledger (n : LineId) (f : Line → Line) (refs : (f (s.line n)).refCount = (s.line n).refCount)
    (actions : (f (s.line n)).fromList = (s.line n).fromList) : (s.updLine n f).ledger = s.ledger := by
  refine State.ledger_eq rfl (fun _ => ⟨rfl, rfl⟩) (fun _ => rfl) (fun k => ?_) (fun _ => Iff.rfl) fun _ => ⟨rfl, rfl⟩
  rw [State.updLine_line]
  split
  · next same => subst same; exact ⟨refs, actions⟩
  · exact ⟨rfl, rfl⟩

/-- A change of a pair that neither makes it nor deletes it. -/
theorem State.updPair_ledger (p : PairId) (f : Pair → Pair) (h : (f (s.pair p)).state = .absent ↔ (s.pair p).state = .absent) :
    (s.updPair p f).ledger = s.ledger := by
  refine State.ledger_eq rfl (fun _ => ⟨rfl, rfl⟩) (fun _ => rfl) (fun _ => ⟨rfl, rfl⟩) (fun q => ?_) fun _ => ⟨rfl, rfl⟩
  rw [State.updPair_pair]
  split
  · next same => subst same; exact h
  · exact Iff.rfl

/-- A change of the record processors that leaves their entries alone. -/
theorem State.updProcs_ledger (f : PairId → Proc → Proc) (h : ∀ p x, (f p x).entry = x.entry ∧ (f p x).held = x.held) :
    (s.updProcs f).ledger = s.ledger :=
  State.ledger_eq rfl (fun _ => ⟨rfl, rfl⟩) (fun _ => rfl) (fun _ => ⟨rfl, rfl⟩) (fun _ => Iff.rfl) fun p => by
    rw [State.updProcs_proc]; exact h p _

/-! What one block hands to another -/

@[simp] theorem State.tellList_ledger (a : AxisId) (m : ListMsg) : (s.tellList a m).ledger = s.ledger := s.updList_ledger a _ rfl rfl
@[simp] theorem State.tellTrip_ledger (n : LineId) (m : TripMsg) : (s.tellTrip n m).ledger = s.ledger := s.updLine_ledger n _ rfl rfl
@[simp] theorem State.tellLines_ledger (a : AxisId) (m : LineMsg) : (s.tellLines a m).ledger = s.ledger := by
  refine State.ledger_eq (by simp) (fun b => ?_) (fun c => ?_) (fun n => ?_) (fun p => ?_) fun p => ?_
  · simp [State.clist]
  · simp [State.chan]
  · rw [State.tellLines, State.updLines_line]
    split <;> exact ⟨rfl, rfl⟩
  · simp [State.pair]
  · simp [State.proc]
@[simp] theorem State.tellChans_ledger (a : AxisId) (m : ChanMsg) : (s.tellChans a m).ledger = s.ledger := by
  refine State.ledger_eq (by simp) (fun b => ?_) (fun c => ?_) (fun n => ?_) (fun p => ?_) fun p => ?_
  · simp [State.clist]
  · rw [State.tellChans, State.updChans_chan]
    split <;> rfl
  · simp [State.line]
  · simp [State.pair]
  · simp [State.proc]

/-! What a record processor takes in the course of its record (R45, R177, R180) -/

theorem Proc.addDiscarded_desk (x : Proc) (p : PairId) : (x.addDiscarded p).entry = x.entry ∧ (x.addDiscarded p).held = x.held := by
  unfold Proc.addDiscarded
  split
  · split <;> exact ⟨rfl, rfl⟩
  · exact ⟨rfl, rfl⟩
theorem Proc.answered_desk (x : Proc) (b : Block) (n k : Nat) : (x.answered b n k).entry = x.entry ∧ (x.answered b n k).held = x.held := by
  unfold Proc.answered; split <;> exact ⟨rfl, rfl⟩
theorem Proc.offerTick_desk (x : Proc) (n : Nat) : (x.offerTick n).entry = x.entry ∧ (x.offerTick n).held = x.held := by
  unfold Proc.offerTick; split <;> exact ⟨rfl, rfl⟩
theorem Proc.told_desk (x : Proc) (p : PairId) (live : Vector Nat 9) (ts : Nat) (es : List Entry) :
    (x.told p live ts es).entry = x.entry ∧ (x.told p live ts es).held = x.held := by
  unfold Proc.told
  dsimp only
  split
  · exact ⟨rfl, rfl⟩
  · split <;> exact ⟨rfl, rfl⟩
  · exact ⟨rfl, rfl⟩

@[simp] theorem State.answer_ledger (p : PairId) (b : Block) (n : Nat) : (s.answer p b n).ledger = s.ledger :=
  s.updProcs_ledger _ fun q x => by
    split
    · exact x.answered_desk ..
    · exact ⟨rfl, rfl⟩
@[simp] theorem State.answerExcluded_ledger (p : PairId) (b : Block) : (s.answerExcluded p b).ledger = s.ledger :=
  s.updProcs_ledger _ fun q x => by
    split
    · exact x.answered_desk ..
    · exact ⟨rfl, rfl⟩

/-! Axis Units -/

@[simp] theorem State.tellHeld_ledger (a : AxisId) : (s.tellHeld a).ledger = s.ledger := by simp [State.tellHeld]
@[simp] theorem State.hold_ledger (a : AxisId) (c : Cause) : (s.hold a c).ledger = s.ledger := by
  unfold State.hold State.enterHeld
  repeat' split
  all_goals simp
@[simp] theorem State.count_ledger (a : AxisId) (d : Dir) : (s.count a d).ledger = s.ledger := by
  unfold State.count State.tellCount
  repeat' split
  all_goals simp
@[simp] theorem State.takeSample_ledger (a : AxisId) (chA chB : Bool) : (s.takeSample a chA chB).ledger = s.ledger := rfl
@[simp] theorem State.prescalerExpires_ledger (a : AxisId) (d : Dir) : (s.prescalerExpires a d).ledger = s.ledger := by
  simp [State.prescalerExpires]
@[simp] theorem State.prescalerAdvances_ledger (a : AxisId) : (s.prescalerAdvances a).ledger = s.ledger := rfl
@[simp] theorem State.prescaleTick_ledger (a : AxisId) : (s.prescaleTick a).ledger = s.ledger := by
  unfold State.prescaleTick
  repeat' split
  all_goals simp
@[simp] theorem State.indexPreset_ledger (a : AxisId) (g : AxisConfig) : (s.indexPreset a g).ledger = s.ledger := by
  unfold State.indexPreset
  dsimp only
  repeat' split
  all_goals rfl
@[simp] theorem State.configureAxis_ledger (a : AxisId) (g : AxisConfig) : (s.configureAxis a g).ledger = s.ledger := by
  have fresh (u : State) : (u.updList a fun l => { l with nextArm := 0, frozen := false, inbox := [] }).ledger = u.ledger :=
    u.updList_ledger a _ rfl rfl
  unfold State.configureAxis
  dsimp only
  split <;> split <;> simp [fresh]
@[simp] theorem State.resume_ledger (a : AxisId) (x : Target) : (s.resume a x).ledger = s.ledger := by simp [State.resume]

end
end Sys2Proof.Machine

namespace Sys2Proof.Machine

section
variable (s : State)

/-! Lines and the Monitor Table -/

/-- A state that differs in the lines, each with its reference count and the actions sent to it, and in what the books do not speak
of. -/
theorem State.ledger_of_lines {s t : State} (lists : t.lists = s.lists) (pool : t.pool = s.pool) (channels : t.channels = s.channels)
    (pairs : t.pairs = s.pairs) (procs : t.procs = s.procs)
    (lines : ∀ n, (t.line n).refCount = (s.line n).refCount ∧ (t.line n).fromList = (s.line n).fromList) : t.ledger = s.ledger :=
  State.ledger_eq pool (fun a => by simp [State.clist, lists]) (fun c => by simp [State.chan, channels]) lines
    (fun p => by simp [State.pair, pairs]) fun p => by simp [State.proc, procs]

@[simp] theorem State.endTickPulse_ledger (n : LineId) : (s.endTickPulse n).ledger = s.ledger := by
  have ended (l : Line) (e : PulseEnds) : (l.endPulse e).refCount = l.refCount ∧ (l.endPulse e).fromList = l.fromList := by
    unfold Line.endPulse; split <;> exact ⟨rfl, rfl⟩
  unfold State.endTickPulse
  repeat' split
  · exact s.updLine_ledger n _ (ended ..).1 (ended ..).2
  all_goals rfl

/-- A line that may be forced keeps its reference count and the actions sent to it. -/
theorem Line.ite_force (l : Line) : (if l.isHost then l.force else l).refCount = l.refCount ∧
    (if l.isHost then l.force else l).fromList = l.fromList := by
  split <;> exact ⟨rfl, rfl⟩
theorem Line.unforce_counts (l : Line) : l.unforce.refCount = l.refCount ∧ l.unforce.fromList = l.fromList := by
  rw [Line.unforce_eq]; exact ⟨rfl, rfl⟩

@[simp] theorem State.takeTrip_ledger (n : LineId) : (s.takeTrip n).ledger = s.ledger := by
  have tripped : (s.updLine n fun l =>
      let l := { l with tripCount := l.tripCount + 1 }
      if l.isHost then l.force else l).ledger = s.ledger :=
    s.updLine_ledger n _ (Line.ite_force _).1 (Line.ite_force _).2
  unfold State.takeTrip
  dsimp only at tripped ⊢
  split
  · rw [State.sendHold_ledger]; exact tripped
  · exact tripped
@[simp] theorem State.takeNotice_ledger (n : LineId) (m : TripMsg) (rest : List TripMsg) :
    (s.takeNotice n m rest).ledger = s.ledger := by
  have popped : (s.updLine n fun l => { l with fromMonitor := rest }).ledger = s.ledger := s.updLine_ledger n _ rfl rfl
  cases m with
  | trip => exact (State.takeTrip_ledger _ n).trans popped
  | release =>
    exact (State.updLine_ledger _ n (fun l => { l with tripCount := l.tripCount - 1 }.unforce) (Line.unforce_counts _).1
      (Line.unforce_counts _).2).trans popped
@[simp] theorem State.settle_ledger (q : QueryOf) : (s.settle q).ledger = s.ledger := by
  have taken (n : LineId) (k : Nat) (u : State) : (u.takeNotices n k).ledger = u.ledger := by
    induction k generalizing u with
    | zero => rfl
    | succ k ih =>
      unfold State.takeNotices
      split
      · exact (ih _).trans (State.takeNotice_ledger ..)
      · rfl
  cases q with
  | line n => exact taken n _ s
  | _ => rfl
@[simp] theorem State.takeCheck_ledger (fb : Vector Bool 16) : (s.takeCheck fb).ledger = s.ledger := by
  unfold State.takeCheck
  split
  · next d _ =>
    rw [State.check_frame]
    exact State.ledger_of_lines rfl rfl rfl rfl rfl fun n => by
      have checked := State.check_line s fb d n
      exact ⟨(congrArg Line.refCount checked :), (congrArg Line.fromList checked :)⟩
  · rfl
@[simp] theorem State.sendRelease_ledger (m : SlotId) : (s.sendRelease m).ledger = s.ledger := by
  unfold State.sendRelease
  split
  · simp
  · rfl
@[simp] theorem State.setGlobal_ledger (enable : Bool) (period : Nat) : (s.setGlobal enable period).ledger = s.ledger := by
  rw [State.setGlobal_frame]; rfl
@[simp] theorem State.offerTick_ledger : s.offerTick.ledger = s.ledger := by
  have monitored (u : State) (m : Monitor) : ({ u with monitor := m } : State).ledger = u.ledger := rfl
  unfold State.offerTick
  rw [monitored, State.updProcs_ledger _ _ fun _ x => x.offerTick_desk s.ts]
  exact State.ledger_of_lines rfl rfl rfl rfl rfl fun n => by
    rw [State.updLines_line]
    split <;> exact ⟨rfl, rfl⟩
@[simp] theorem State.advanceTime_ledger : s.advanceTime.ledger = s.ledger := by
  rw [State.advanceTime, State.offerTick_ledger]
  rfl
@[simp] theorem State.takeLevel_ledger (c : ChanId) (input : InputId) (level : Bool) : (s.takeLevel c input level).ledger = s.ledger :=
  s.updChan_ledger c (fun x => { x with ref := level }) rfl

/-! The Ring Engine -/

@[simp] theorem State.flushCq_ledger (p : PairId) : (s.flushCq p).ledger = s.ledger :=
  s.updPair_ledger p
    (fun q => { q with totLost := satAdd max32 q.totLost (s.writeQ.filter fun w => w.recordOf (.cq p)).length }) Iff.rfl
@[simp] theorem State.setCause_ledger (p : PairId) (c : ErrorCause) : (s.setCause p c).ledger = s.ledger := by
  unfold State.setCause
  split
  · next active _ => rw [State.flushCq_ledger]; exact s.updPair_ledger p _ (by simp [active])
  · next draining _ => rw [State.flushCq_ledger]; exact s.updPair_ledger p _ Iff.rfl
  · rfl
@[simp] theorem State.restartAdminSq_ledger : s.restartAdminSq.ledger = s.ledger := s.updPair_ledger 0 _ Iff.rfl
@[simp] theorem State.restartAdminCq_ledger : s.restartAdminCq.ledger = s.ledger :=
  s.updPair_ledger 0 (fun q => { q with cqWrite := 0, cqPub := 0, cqDone := 0, reserved := false, pendLost := 0, totLost := 0 }) Iff.rfl
@[simp] theorem State.grant_ledger (p : PairId) : (s.grant p).ledger = s.ledger :=
  s.updPair_ledger p (fun q => { q with reserved := true }) Iff.rfl
@[simp] theorem State.endRead_ledger (p : PairId) : (s.endRead p).ledger = s.ledger :=
  s.updPair_ledger p (fun q => { q with reserved := false }) Iff.rfl
@[simp] theorem State.acceptCq_ledger (p : PairId) (q : CqRequest) : (s.acceptCq p q).ledger = s.ledger :=
  s.updPair_ledger p Pair.accept Iff.rfl
@[simp] theorem State.takeReport_ledger (p : PairId) (q : CqRequest) : (s.takeReport p q).ledger = s.ledger := by
  unfold State.takeReport
  repeat' split
  · rfl
  · exact s.updPair_ledger p _ Iff.rfl
  · simp
  · exact s.updPair_ledger p _ Iff.rfl
@[simp] theorem State.takeNotification_ledger (n : Notice) : (s.takeNotification n).ledger = s.ledger := by
  unfold State.takeNotification
  repeat' split
  all_goals rfl
@[simp] theorem State.endWrite_ledger : s.endWrite.ledger = s.ledger := rfl
@[simp] theorem State.publish_ledger (ring : RingId) (v : Nat) : (s.publish ring v).ledger = s.ledger := by
  cases ring with
  | cq p => exact s.updPair_ledger p _ Iff.rfl
  | nq => rfl
@[simp] theorem State.answerStatus_ledger (w : QueuedWrite) (stale : Bool) : (s.answerStatus w stale).ledger = s.ledger := by
  unfold State.answerStatus
  repeat' split
  all_goals simp
@[simp] theorem State.setNotices_ledger (base : W64) (size : Nat) : (s.setNotices base size).ledger = s.ledger := rfl

end
end Sys2Proof.Machine

namespace Sys2Proof.Machine

/-! ## What the lists keep (R57 to R81) -/

/-- The entries of the records in progress: those they ask for or hold, and those they hold. -/
def State.desks (s : State) (p : PairId) : List Entry × List Entry := ((s.proc p).entry, (s.proc p).held)

section
variable (s : State)

/-- A change of the record processors that leaves their entries alone. -/
theorem State.updProcs_desks (f : PairId → Proc → Proc) (h : ∀ p x, (f p x).entry = x.entry ∧ (f p x).held = x.held) :
    (s.updProcs f).desks = s.desks := by
  funext p
  simp only [State.desks, State.updProcs_proc, h]
@[simp] theorem State.updList_desks (a : AxisId) (f : CList → CList) : (s.updList a f).desks = s.desks := rfl
@[simp] theorem State.updChan_desks (c : ChanId) (f : Channel → Channel) : (s.updChan c f).desks = s.desks := rfl
@[simp] theorem State.updLine_desks (n : LineId) (f : Line → Line) : (s.updLine n f).desks = s.desks := rfl
@[simp] theorem State.sendAction_desks (n : LineId) (f : FireAction) : (s.sendAction n f).desks = s.desks := rfl
@[simp] theorem State.handReport_desks (p : PairId) (q : CqRequest) : (s.handReport p q).desks = s.desks := rfl
@[simp] theorem State.release_desks (e : Entry) : (s.release e).desks = s.desks := by
  funext p
  simp only [State.desks, State.release_proc, Proc.told_desk]
@[simp] theorem State.retire_desks (e : Entry) : (s.retire e).desks = s.desks := by simp [State.retire]
/-- A fold leaves the desks alone when each of its steps does. -/
theorem State.foldl_desks {α : Type} (f : State → α → State) (h : ∀ u x, (f u x).desks = u.desks) (l : List α) :
    (l.foldl f s).desks = s.desks :=
  List.foldlRecOn (motive := fun u : State => u.desks = s.desks) l f rfl fun u hu x _ => (h u x).trans hu
@[simp] theorem State.releaseAll_desks (es : List Entry) : (s.releaseAll es).desks = s.desks :=
  State.foldl_desks s _ (fun u e => u.release_desks e) es
@[simp] theorem State.retireAll_desks (es : List Entry) : (s.retireAll es).desks = s.desks :=
  State.foldl_desks s _ (fun u e => u.retire_desks e) es
@[simp] theorem State.removeArmed_desks (a : AxisId) (reaches : Entry → Bool) : (s.removeArmed a reaches).desks = s.desks := by
  simp [State.removeArmed]
@[simp] theorem State.reportRetire_desks (e : Entry) (x : Reason) (pos : Int) (serial stamp : Nat) :
    (s.reportRetire e x pos serial stamp).desks = s.desks := by
  unfold State.reportRetire; split <;> simp
@[simp] theorem State.advance_desks (a : AxisId) (k : AxisKind) (e : Entry) (order : Option Nat) (f : FirePoint) :
    (s.advance a k e order f).desks = s.desks := by
  unfold State.advance
  repeat' split
  all_goals simp
@[simp] theorem State.fire_desks (a : AxisId) (k : AxisKind) (e : Entry) (order : Option Nat) (f : FirePoint) (reports : Bool) :
    (s.fire a k e order f reports).desks = s.desks := by
  unfold State.fire
  dsimp only
  split <;> split <;> simp
@[simp] theorem State.takeListMsg_desks (a : AxisId) (m : ListMsg) : (s.takeListMsg a m).desks = s.desks := by
  have fired (u : State) (k : AxisKind) (c : Count) (x : Armed) : (State.fireArmed a k c u x).desks = u.desks := by
    simp [State.fireArmed]
  cases m with
  | freeze => rfl
  | unfreeze => rfl
  | count c =>
    unfold State.takeListMsg State.crossing
    dsimp only
    repeat' split
    · rfl
    · exact State.foldl_desks _ _ (fun u x => fired u _ c x) _
    · rfl
@[simp] theorem State.insertActivated_desks (a : AxisId) (w : Waiting) (origin : Int) (g : AxisConfig) :
    (s.insertActivated a w origin g).desks = s.desks := by
  unfold State.insertActivated
  dsimp only
  repeat' split
  all_goals simp

end

namespace State.Books

variable {s : State} {loose fired : List Entry} {e : Entry}

/-- A list takes the first message of its inbox (R57). -/
theorem takeListMsg (h : s.Books loose fired) (a : AxisId) (m : ListMsg) : (s.takeListMsg a m).Books loose fired := by
  have popped : (s.popInbox a).Books loose fired := h.of_ledger (s.updList_ledger a _ rfl rfl)
  cases m with
  | freeze => exact popped.of_ledger (State.updList_ledger _ a (fun l => { l with frozen := true }) rfl rfl)
  | unfreeze => exact popped.of_ledger (State.updList_ledger _ a (fun l => { l with frozen := false }) rfl rfl)
  | count k =>
    unfold State.takeListMsg State.crossing
    dsimp only
    repeat' split
    · exact popped
    · exact popped.fireAll _ k a _ List.filter_sublist.subperm
    · exact popped

/-- What an insertion does with the entry of an activation that has left it (R79, R80). -/
theorem insertActivated (w : Waiting) (h : s.Books (w.entry :: loose) (w.entry :: fired)) (a : AxisId) (origin : Int) (g : AxisConfig) :
    (s.insertActivated a w origin g).Books loose fired := by
  unfold State.insertActivated
  dsimp only
  repeat' split
  · exact retire (h.reportRetire ..)
  · exact retire (h.reportRetire ..)
  · exact retire (h.reportRetire ..)
  · exact retire (h.reportRetire ..)
  · exact fire h ..
  · exact place h ..

end State.Books

/-- An activation gives up its first entry (R79). -/
theorem CList.takeActivated_tally (l : CList) (which : Nat) (k : Activation) (w : Waiting) (rest : List Waiting)
    (hk : l.activations[which]? = some k) (hw : k.entries = w :: rest) (P : Entry → Bool) :
    (l.takeActivated which).tally P + [w.entry].countP P = l.tally P := by
  obtain ⟨bound, here⟩ := List.getElem?_eq_some_iff.1 hk
  have split : l.activations = l.activations.take which ++ k :: l.activations.drop (which + 1) := by
    rw [← here, List.getElem_cons_drop, List.take_append_drop]
  have held : l.held.countP P = ((l.activations.take which).flatMap fun x => x.entries.map fun w => w.entry).countP P +
      (((w :: rest).map fun w => w.entry).countP P +
        ((l.activations.drop (which + 1)).flatMap fun x => x.entries.map fun w => w.entry).countP P) := by
    rw [CList.held]
    conv_lhs => rw [split]
    rw [List.flatMap_append, List.flatMap_cons, List.countP_append, List.countP_append, hw]
  simp only [CList.held, List.map_cons, List.countP_cons] at held
  cases rest with
  | nil =>
    have ended : l.takeActivated which = { l with activations := l.activations.eraseIdx which } := by
      simp only [CList.takeActivated, hk, hw]
    rw [ended]
    simp only [CList.tally, CList.armed, CList.held, List.eraseIdx_eq_take_drop_succ, List.flatMap_append, List.countP_append,
      List.countP_singleton, List.map_nil, List.countP_nil] at held ⊢
    omega
  | cons w' rest =>
    have left : l.takeActivated which = { l with activations := l.activations.set which { k with entries := w' :: rest } } := by
      simp only [CList.takeActivated, hk, hw]
    rw [left]
    simp only [CList.tally, CList.armed, CList.held, List.set_eq_take_append_cons_drop, if_pos bound, List.flatMap_append,
      List.flatMap_cons, List.countP_append, List.map_cons, List.countP_cons, List.countP_nil] at held ⊢
    omega

namespace State.Books

variable {s : State} {loose fired : List Entry}

/-- The first entry of an activation leaves it (R79). -/
theorem takeActivated (h : s.Books loose fired) (a : AxisId) (which : Nat) (k : Activation) (w : Waiting) (rest : List Waiting)
    (hk : (s.clist a).activations[which]? = some k) (hw : k.entries = w :: rest) :
    (s.updList a fun l => l.takeActivated which).Books (w.entry :: loose) (w.entry :: fired) := by
  refine h.updList a _ (fun P => ?_) (fun x hx => ?_) fun x hx => .inl (List.mem_cons_of_mem _ hx)
  · have taken := CList.takeActivated_tally _ which k w rest hk hw P
    rw [List.countP_singleton] at taken
    rw [List.countP_cons]
    omega
  · rw [CList.armed, CList.takeActivated_entries]
    exact .inr hx

/-! ### Channels (R89 to R99) -/

/-- A channel changes: what has left it is loose, and its batches hold entries of their owners. -/
theorem updChan {loose' : List Entry} (h : s.Books loose fired) (c : ChanId) (f : Channel → Channel)
    (tally : ∀ P, (f (s.chan c)).waiting.countP P + loose'.countP P = (s.chan c).waiting.countP P + loose.countP P)
    (batches : ∀ b ∈ (f (s.chan c)).batches, ∀ w ∈ b.entries, w.entry.owner = b.owner) : (s.updChan c f).Books loose' fired := by
  refine h.moved rfl (fun _ => rfl) (fun P => ?_) (fun d => ?_) (fun _ => id) h.actions
  · have changed := s.updChan_tally P c f
    have counts := tally P
    omega
  · rw [State.updChan_chan]
    split
    · next same => subst same; exact batches
    · exact h.batches d

/-- A removal takes what it reaches out of a channel and releases it (R98, R99). -/
theorem removeWaiting (h : s.Books loose fired) (p : PairId) (c : ChanId) (reaches : Entry → Bool) (f : Channel → Channel)
    (tally : ∀ P, (f (s.chan c)).waiting.countP P + ((s.chan c).reached reaches).countP P = (s.chan c).waiting.countP P)
    (batches : ∀ b ∈ (f (s.chan c)).batches, ∀ w ∈ b.entries, w.entry.owner = b.owner) :
    (s.removeWaiting p c reaches f).Books loose fired := by
  have left := h.updChan (loose' := (s.chan c).reached reaches ++ loose) c f (fun P => by
    have counts := tally P
    rw [List.countP_append]
    omega) batches
  exact (left.releaseAll _).of_ledger (State.answer_ledger _ p _ _)

/-- What follows the latch of a capture edge: the oldest closed batch is handed to the list (R92). -/
theorem afterLatch (h : s.Books loose fired) (c : ChanId) (g : ChanConfig) (k : Capture) : (s.afterLatch c g k).Books loose fired := by
  have reported (u : State) (n : Nat) (held unclaimed : Bool) : (u.reportCapture c g k n held unclaimed).ledger = u.ledger := by
    unfold State.reportCapture; split <;> rfl
  unfold State.afterLatch
  split
  · exact h.of_ledger (reported ..)
  · split
    · next b rest hb =>
      refine of_ledger (reported ..) ?_
      have gone := h.updChan (loose' := (b.entries.map fun w => w.entry) ++ loose) c (fun x => { x with closed := rest })
        (fun P => by
          simp only [Channel.waiting, Channel.batches, hb, List.flatMap_append, List.flatMap_cons, List.countP_append]
          omega)
        fun b' hb' => h.batches c b' (by
          simp only [Channel.batches, hb, List.mem_append, List.mem_cons] at hb' ⊢
          exact hb'.imp_right .inr)
      refine gone.updList g.axis _ (fun P => ?_) (fun x hx => .inr hx) fun x hx => .inl hx
      simp only [CList.tally, CList.armed, CList.held, List.flatMap_append, List.flatMap_cons, List.flatMap_nil, List.countP_append,
        List.append_nil]
      omega
    · exact of_ledger (reported ..) (h.of_ledger (State.updChan_ledger s c _ rfl))

/-- A capture edge (R89). -/
theorem captureEdge (h : s.Books loose fired) (c : ChanId) (g : ChanConfig) : (s.captureEdge c g).Books loose fired := by
  unfold State.captureEdge
  dsimp only
  split
  · exact h.of_ledger (s.updChan_ledger c _ rfl)
  · exact (h.of_ledger (s.updChan_ledger c _ rfl)).afterLatch c g _

end State.Books
end Sys2Proof.Machine

namespace Sys2Proof.Machine

/-! ### What is left at a channel (R94 to R99) -/

/-- The entries of several batches. -/
def waitingOf (bs : List Batch) : List Entry := bs.flatMap fun b => b.entries.map fun w => w.entry

theorem Channel.waiting_eq (x : Channel) : x.waiting = waitingOf x.batches := rfl

theorem waitingOf_append (bs cs : List Batch) : waitingOf (bs ++ cs) = waitingOf bs ++ waitingOf cs := List.flatMap_append

/-- A batch with no entries adds nothing. -/
theorem waitingOf_filter_isEmpty (bs : List Batch) : waitingOf (bs.filter fun b => !b.entries.isEmpty) = waitingOf bs := by
  induction bs with
  | nil => rfl
  | cons b bs ih =>
    simp only [waitingOf] at ih
    cases hb : b.entries <;> simp [waitingOf, hb, ih]

/-- The batches without the entries that a removal reaches. -/
theorem waitingOf_without (bs : List Batch) (reaches : Entry → Bool) :
    waitingOf (bs.map fun b => b.without reaches) = (waitingOf bs).filter fun e => !reaches e := by
  induction bs with
  | nil => rfl
  | cons b bs ih =>
    have first : ((b.without reaches).entries.map fun w => w.entry) = (b.entries.map fun w => w.entry).filter fun e => !reaches e := by
      rw [List.filter_map]; rfl
    simp only [waitingOf] at ih
    simp only [waitingOf, List.map_cons, List.flatMap_cons, List.filter_append, first, ih]

/-- The batches of a pair are those that hold its entries (R94). -/
theorem waitingOf_filter_owner (bs : List Batch) (p : PairId) (own : ∀ b ∈ bs, ∀ w ∈ b.entries, w.entry.owner = b.owner) :
    waitingOf (bs.filter fun b => b.owner != p) = (waitingOf bs).filter fun e => !(e.owner == p) := by
  induction bs with
  | nil => rfl
  | cons b bs ih =>
    have rest := ih fun c hc => own c (List.mem_cons_of_mem _ hc)
    have first : (b.entries.map fun w => w.entry).filter (fun e => !(e.owner == p)) =
        if b.owner = p then [] else b.entries.map fun w => w.entry := by
      split
      · next same => simpa [List.filter_eq_nil_iff] using fun w hw => (own b List.mem_cons_self w hw).trans same
      · next other =>
        refine List.filter_eq_self.2 fun e he => ?_
        obtain ⟨w, hw, rfl⟩ := List.mem_map.1 he
        simpa [own b List.mem_cons_self w hw] using other
    simp only [waitingOf] at rest
    simp only [waitingOf, List.flatMap_cons, List.filter_append, first, ← rest]
    by_cases same : b.owner = p <;> simp [same]

/-- What a CANCEL leaves at a channel (R98). -/
theorem Channel.without_waiting (x : Channel) (reaches : Entry → Bool) :
    (x.without reaches).waiting = x.waiting.filter fun e => !reaches e := by
  have openLeft : (x.openBatch.map fun b => b.without reaches).toList = x.openBatch.toList.map fun b => b.without reaches := by
    cases x.openBatch <;> rfl
  simp only [Channel.waiting_eq, Channel.batches, Channel.without, waitingOf_append, waitingOf_filter_isEmpty, openLeft,
    waitingOf_without, List.filter_append]

theorem Channel.withoutPair_batches (x : Channel) (p : PairId) :
    (x.withoutPair p).batches = x.batches.filter fun b => b.owner != p := by
  have openLeft : (x.openBatch.filter fun b => b.owner != p).toList = x.openBatch.toList.filter fun b => b.owner != p := by
    cases x.openBatch with
    | none => rfl
    | some b => cases hb : (b.owner != p) <;> simp [Option.filter, hb]
  simp only [Channel.batches, Channel.withoutPair, openLeft, List.filter_append]

/-- Closing moves the open batch behind the closed ones (R96). -/
theorem Channel.mem_close_batches (x : Channel) (b : Batch) : b ∈ x.close.batches ↔ b ∈ x.batches := by
  simp [Channel.batches, Channel.close, or_comm]

theorem Channel.close_countP (x : Channel) (P : Entry → Bool) : x.close.waiting.countP P = x.waiting.countP P := by
  have moved : x.close.batches = x.closed ++ x.openBatch.toList := rfl
  rw [Channel.waiting_eq, Channel.waiting_eq, moved, Channel.batches, waitingOf_append, waitingOf_append, List.countP_append,
    List.countP_append, Nat.add_comm]

/-- The entry appended is the only one that has come (R95). -/
theorem Channel.appended_countP (x : Channel) (p : PairId) (w : Waiting) (P : Entry → Bool) :
    (x.appended p w).waiting.countP P = x.waiting.countP P + [w.entry].countP P := by
  cases hb : x.openBatch with
  | none => simp [Channel.appended, Channel.waiting, Channel.batches, hb, Nat.add_comm, List.countP_cons]
  | some b =>
    simp only [Channel.appended, Channel.waiting, Channel.batches, hb, List.countP_append, List.flatMap_append, Option.toList_some,
      List.flatMap_cons, List.flatMap_nil, List.append_nil, List.map_append, List.map_cons, List.map_nil]
    omega

theorem Channel.accepted_countP (x : Channel) (p : PairId) (w : Waiting) (close : Bool) (P : Entry → Bool) :
    (x.accepted p w close).waiting.countP P = x.waiting.countP P + [w.entry].countP P := by
  unfold Channel.accepted
  split
  · rw [Channel.close_countP, Channel.appended_countP]
  · exact x.appended_countP p w P

theorem Channel.refused_countP (x : Channel) (st : Status) (close : Bool) (P : Entry → Bool) :
    (x.refused st close).waiting.countP P = x.waiting.countP P := by
  unfold Channel.refused
  split
  · exact x.close_countP P
  · rfl

/-- An append that passes its tests finds no open batch of another pair (R95). -/
theorem Channel.openBatch_of_appendTest {x : Channel} {p : PairId} {a : AxisId} {close : Bool}
    (h : x.appendTest p a close = none) : ∀ b ∈ x.openBatch, b.owner = p := by
  intro b hb
  unfold Channel.appendTest at h
  rw [Option.mem_def.1 hb] at h
  by_contra other
  cases hx : x.boundTo a <;> simp [hx, other] at h

/-- A batch of the channel after an append holds entries of its owner (R94). -/
theorem Channel.accepted_batches {x : Channel} {p : PairId} {w : Waiting} {a : AxisId} {close : Bool}
    (test : x.appendTest p a close = none) (own : w.entry.owner = p)
    (h : ∀ b ∈ x.batches, ∀ v ∈ b.entries, v.entry.owner = b.owner) :
    ∀ b ∈ (x.accepted p w close).batches, ∀ v ∈ b.entries, v.entry.owner = b.owner := by
  have appended : ∀ b ∈ (x.appended p w).batches, ∀ v ∈ b.entries, v.entry.owner = b.owner := by
    intro b hb v hv
    cases ho : x.openBatch with
    | none =>
      simp only [Channel.appended, Channel.batches, ho, Option.toList_some, List.cons_append, List.nil_append, List.mem_cons] at hb
      rcases hb with rfl | hb
      · rw [List.mem_singleton.1 hv]; exact own
      · exact h b (List.mem_append_right _ hb) v hv
    | some b' =>
      have owner := Channel.openBatch_of_appendTest test b' ho
      have before : b' ∈ x.batches := by simp [Channel.batches, ho]
      simp only [Channel.appended, Channel.batches, ho, Option.toList_some, List.cons_append, List.nil_append, List.mem_cons] at hb
      rcases hb with rfl | hb
      · rcases List.mem_append.1 hv with hv | hv
        · exact h b' before v hv
        · rw [List.mem_singleton.1 hv]; exact own.trans owner.symm
      · exact h b (List.mem_append_right _ hb) v hv
  unfold Channel.accepted
  split
  · exact fun b hb => appended b ((Channel.mem_close_batches _ b).1 hb)
  · exact appended

theorem Channel.refused_batches {x : Channel} (st : Status) (close : Bool)
    (h : ∀ b ∈ x.batches, ∀ v ∈ b.entries, v.entry.owner = b.owner) :
    ∀ b ∈ (x.refused st close).batches, ∀ v ∈ b.entries, v.entry.owner = b.owner := by
  unfold Channel.refused
  split
  · exact fun b hb => h b ((Channel.mem_close_batches _ b).1 hb)
  · exact h

/-- A batch of the channel after a CANCEL holds entries of its owner (R94). -/
theorem Channel.without_batches {x : Channel} (reaches : Entry → Bool)
    (h : ∀ b ∈ x.batches, ∀ v ∈ b.entries, v.entry.owner = b.owner) :
    ∀ b ∈ (x.without reaches).batches, ∀ v ∈ b.entries, v.entry.owner = b.owner := by
  intro b hb v hv
  have from' : ∃ b' ∈ x.batches, b'.without reaches = b := by
    rcases List.mem_append.1 hb with hb | hb
    · obtain ⟨b', ho, same⟩ : ∃ b', x.openBatch = some b' ∧ b'.without reaches = b := by
        simpa [Channel.without, Option.mem_toList, Option.map_eq_some_iff] using hb
      exact ⟨b', by simp [Channel.batches, ho], same⟩
    · obtain ⟨⟨b', hb', same⟩, -⟩ : (∃ b' ∈ x.closed, b'.without reaches = b) ∧ _ := by
        simpa [Channel.without] using hb
      exact ⟨b', List.mem_append_right _ hb', same⟩
  obtain ⟨b', hb', rfl⟩ := from'
  exact h b' hb' v (List.mem_filter.1 hv).1

/-! ### Channels and the pool -/

/-- The live entries with a property, those that a removal reaches and the others. -/
theorem countP_split (es : List Entry) (reaches P : Entry → Bool) :
    (es.filter fun e => !reaches e).countP P + (es.filter reaches).countP P = es.countP P := by
  rw [← ((List.filter_append_perm reaches es).countP_eq P), List.countP_append, Nat.add_comm]

/-- The line of an entry allocated has one reference more (R41). -/
theorem State.allocate_line (s : State) (p : PairId) (e : Entry) (n : LineId) :
    (s.allocate p e).line n = if e.line = n then { s.line n with refCount := (s.line n).refCount + 1 } else s.line n := by
  unfold State.allocate
  rw [State.updLine_line]
  split
  · next same => subst same; rfl
  · rfl

/-- The pair of an entry allocated has one live entry more (R41). -/
theorem State.allocate_live (s : State) (p q : PairId) (e : Entry) :
    (s.allocate p e).pool.live[q] = s.pool.live[q] + if p = q then 1 else 0 :=
  live_of_allocate s.pool.live p q

/-- The quota that a pair takes is its own (R149). -/
theorem State.setQuota_quota (s : State) (p q : PairId) (quota : Nat) :
    (s.setQuota p quota).pool.quota[q] = if p = q then quota else s.pool.quota[q] := by
  change (s.pool.quota.set p quota)[q] = _
  by_cases here : p = q
  · subst here; simp
  · have other : p.val ≠ q.val := fun e => here (Fin.ext e)
    simp [here, Vector.getElem_set_ne _ _ other]

/-- The live count of a pair that has no live entry stays as it is (R149). -/
theorem State.setQuota_live (s : State) (p : PairId) (quota : Nat) (empty : s.pool.live[p] = 0) :
    (s.setQuota p quota).pool.live = s.pool.live := by
  change s.pool.live.set p 0 = _
  rw [← empty]
  exact Vector.set_getElem_self _

namespace State.Books

variable {s : State} {loose fired : List Entry} {e : Entry}

/-- CHANNEL_CANCEL (R98). -/
theorem cancelWaiting (h : s.Books loose fired) (p : PairId) (c : ChanId) (reaches : Entry → Bool) :
    (s.removeWaiting p c reaches fun x => x.without reaches).Books loose fired :=
  h.removeWaiting p c reaches _ (fun P => by rw [Channel.without_waiting]; exact countP_split _ reaches P)
    (Channel.without_batches reaches (h.batches c))

/-- CHANNEL_CANCEL_AXIS (R99). -/
theorem emptyWaiting (h : s.Books loose fired) (p : PairId) (c : ChanId) :
    (s.removeWaiting p c (fun _ => true) Channel.emptied).Books loose fired := by
  refine h.removeWaiting p c _ _ (fun P => ?_) fun b hb => ?_
  · have all : (s.chan c).reached (fun _ => true) = (s.chan c).waiting := List.filter_eq_self.2 fun _ _ => rfl
    rw [all]
    exact Nat.zero_add _
  · cases hb

/-- CHANNEL_DISCARD_PAIR (R99, R151). -/
theorem discardWaiting (h : s.Books loose fired) (p q : PairId) (c : ChanId) :
    (s.removeWaiting p c (fun e => e.owner == q) fun x => x.withoutPair q).Books loose fired := by
  refine h.removeWaiting p c _ _ (fun P => ?_) fun b hb => ?_
  · rw [Channel.waiting_eq, Channel.withoutPair_batches, waitingOf_filter_owner _ q (h.batches c)]
    exact countP_split _ _ P
  · rw [Channel.withoutPair_batches] at hb
    exact h.batches c b (List.mem_filter.1 hb).1

/-- An append that is accepted takes the entry into a batch of its owner (R95). -/
theorem accept (w : Waiting) (h : s.Books (w.entry :: loose) fired) (p : PairId) (c : ChanId) (a : AxisId) (close : Bool)
    (own : w.entry.owner = p) (test : (s.chan c).appendTest p a close = none) :
    (s.updChan c fun x => x.accepted p w close).Books loose fired := by
  refine h.updChan c _ (fun P => ?_) (Channel.accepted_batches test own (h.batches c))
  have come := (s.chan c).accepted_countP p w close P
  rw [List.countP_singleton] at come
  rw [List.countP_cons]
  omega

/-- An append that is refused leaves the entries of the channel where they are (R96). -/
theorem refuse (h : s.Books loose fired) (c : ChanId) (st : Status) (close : Bool) :
    (s.updChan c fun x => x.refused st close).Books loose fired :=
  h.updChan c _ (fun P => by rw [Channel.refused_countP]) (Channel.refused_batches st close (h.batches c))

/-- A channel starts afresh with its entries released (R85, R86). -/
theorem freshChan (h : s.Books loose fired) (c : ChanId) (x : Channel) (empty : x.batches = []) :
    ((s.updChan c fun _ => x).releaseAll (s.chan c).waiting).Books loose fired := by
  have none : x.waiting = [] := by rw [Channel.waiting_eq, empty]; rfl
  refine releaseAll _ (h.updChan c _ (fun P => ?_) fun b hb => ?_)
  · rw [none, List.countP_append]
    exact Nat.zero_add _
  · rw [empty] at hb
    cases hb

/-- A granted allocation: the entry stands nowhere yet (R41). -/
theorem allocate (h : s.Books loose fired) (p : PairId) (own : e.owner = p) (room : s.pool.live[p] < s.pool.quota[p])
    (free : s.pool.free ≠ 0) : (s.allocate p e).Books (e :: loose) fired where
  free := by
    have total := h.free
    change s.pool.free - 1 + (s.tally _ + _) = 2048
    rw [List.length_cons]
    omega
  live q := by
    have counted := h.live q
    rw [State.allocate_live, List.countP_cons]
    change _ = s.tally _ + _
    simp only [own, beq_iff_eq]
    omega
  quota q := by
    have within := h.quota q
    rw [State.allocate_live]
    change _ ≤ s.pool.quota[q]
    split
    · next same => subst same; omega
    · exact within
  refs n := by
    have counted := h.refs n
    rw [State.allocate_line, List.countP_cons]
    change _ = s.tally _ + _
    by_cases same : e.line = n
    · simp only [same, beq_self_eq_true, if_true]
      omega
    · simpa [same] using counted
  batches := h.batches
  absent := h.absent
  actions n hn := by
    refine h.actions n ?_
    rw [State.allocate_line] at hn
    split at hn <;> exact hn

/-- A pair that has no live entries takes another quota (R149, R151). -/
theorem setQuota (h : s.Books loose fired) (p : PairId) (quota : Nat) (empty : s.pool.live[p] = 0) (f : Pair → Pair)
    (none : (f (s.pair p)).state = .absent → quota = 0) : ((s.updPair p f).setQuota p quota).Books loose fired := by
  have live := (s.updPair p f).setQuota_live p quota empty
  refine ⟨h.free, fun q => ?_, fun q => ?_, h.refs, h.batches, fun q hq => ?_, h.actions⟩
  · rw [live]
    exact h.live q
  · rw [live, State.setQuota_quota]
    split
    · next here => subst here; exact empty.le.trans (Nat.zero_le _)
    · exact h.quota q
  · change ((s.updPair p f).pair q).state = .absent at hq
    rw [State.updPair_pair] at hq
    rw [State.setQuota_quota]
    split
    · next here => subst here; rw [if_pos rfl] at hq; exact none hq
    · next other => rw [if_neg other] at hq; exact h.absent q hq

/-- A pair with no live entries becomes ABSENT: what it leaves at a channel is an open batch without entries (R151). -/
theorem becomeAbsent (h : s.Books loose fired) (p : PairId) (empty : s.pool.live[p] = 0) : (s.becomeAbsent p).Books loose fired := by
  have gone := h.setQuota p 0 empty (fun q => { absentPair with cause := q.cause }) fun _ => rfl
  have opened (c : ChanId) (b : Batch) (hb : (s.chan c).openBatch = some b) (own : b.owner = p) : b.entries = [] := by
    have counted := h.live p
    have none : (s.chan c).waiting.countP (fun e => e.owner == p) = 0 := by
      have part := Finset.single_le_sum (f := fun d => (s.chan d).waiting.countP fun e => e.owner == p) (fun _ _ => Nat.zero_le _)
        (Finset.mem_univ c)
      simp only [State.tally] at counted
      omega
    have inBatch : b ∈ (s.chan c).batches := by simp [Channel.batches, hb]
    refine List.eq_nil_iff_forall_not_mem.2 fun w hw => ?_
    have here : w.entry ∈ (s.chan c).waiting := List.mem_flatMap.2 ⟨b, inBatch, List.mem_map_of_mem hw⟩
    exact List.countP_eq_zero.1 none _ here (by simpa using (h.batches c b inBatch w hw).trans own)
  have waiting (c : ChanId) : ((s.becomeAbsent p).chan c).waiting = (s.chan c).waiting := by
    rw [State.becomeAbsent_chan]
    cases hb : (s.chan c).openBatch with
    | none => simp [Channel.waiting, Channel.batches, hb]
    | some b =>
      by_cases own : b.owner = p
      · simp [Channel.waiting, Channel.batches, hb, own, opened c b hb own]
      · simp [Channel.waiting, Channel.batches, hb, own, Option.filter]
  refine gone.moved ?_ ?_ (fun P => ?_) (fun c b hb => ?_) (fun q hq => ?_) fun n hn => ?_
  · rw [State.becomeAbsent_eq]; rfl
  · rw [State.becomeAbsent_eq]; exact fun _ => rfl
  · have lists (a : AxisId) : ((s.becomeAbsent p).clist a).tally P = (s.clist a).tally P := by
      rw [State.becomeAbsent_clist]; rfl
    simp only [State.tally, lists, waiting]
    rfl
  · refine h.batches c b ?_
    rw [State.becomeAbsent_chan] at hb
    rcases List.mem_append.1 hb with hb | hb
    · refine List.mem_append_left _ (Option.mem_toList.2 ?_)
      exact (Option.mem_filter_iff.1 (Option.mem_toList.1 hb)).1
    · exact List.mem_append_right _ hb
  · rw [State.becomeAbsent_pair] at hq
    change ((s.updPair p fun q => { absentPair with cause := q.cause }).pair q).state = .absent
    rw [State.updPair_pair]
    exact hq
  · have armed (a : AxisId) : ((s.becomeAbsent p).clist a).armed = (s.clist a).armed := by
      rw [State.becomeAbsent_clist]; rfl
    have line : (s.becomeAbsent p).line n = s.line n := by rw [State.becomeAbsent_eq]; rfl
    rw [line] at hn
    simpa only [armed] using h.actions n hn

end State.Books
end Sys2Proof.Machine

namespace Sys2Proof.Machine

/-! ## What a command does to the entries -/

/-- A record that asks for no entry and holds none. -/
theorem Proc.owner_of_entry_nil {x : Proc} {p : PairId} (none : x.entry = []) : ∀ e ∈ x.entry, e.owner = p := by
  rw [none]
  exact fun e he => absurd he List.not_mem_nil

/-- From `s` to `t` the books of the entries are kept, whatever stands nowhere meanwhile; every record in progress holds what it held,
and asks for no entry but its own (R40, R47, R48, R168). -/
structure State.Keeps (s t : State) : Prop where
  books {loose fired : List Entry} : s.Books loose fired → t.Books loose fired
  held : ∀ p, (t.proc p).held = (s.proc p).held
  asks : ∀ p, ∀ e ∈ (t.proc p).entry, e ∈ (s.proc p).entry ∨ e.owner = p

/-- The entries that the records of the other pairs hold. -/
def State.heldElsewhere (s : State) (p : PairId) : List Entry := ((List.finRange 9).erase p).flatMap fun q => (s.proc q).held

theorem State.atRecords_eq (s : State) : s.atRecords = (List.finRange 9).flatMap fun p => (s.proc p).held := by
  have listed : s.procs.toList = (List.finRange 9).map s.proc := by
    rw [← List.ofFn_eq_map, ← Vector.toList_ofFn]
    congr 1
    ext i hi
    simp [State.proc]
  rw [State.atRecords, listed, List.flatMap_map]

/-- The entries that records hold are those of one pair's record and those of the others. -/
theorem State.atRecords_perm (s : State) (p : PairId) : s.atRecords.Perm ((s.proc p).held ++ s.heldElsewhere p) := by
  rw [State.atRecords_eq]
  exact (List.perm_cons_erase (List.mem_finRange p)).flatMap_right _

theorem State.heldElsewhere_congr {s t : State} (p : PairId) (h : ∀ q, q ≠ p → (t.proc q).held = (s.proc q).held) :
    t.heldElsewhere p = s.heldElsewhere p := by
  unfold State.heldElsewhere
  rw [List.flatMap_congr fun q hq => h q ?_]
  rintro rfl
  exact (List.nodup_finRange 9).not_mem_erase hq

/-- The order of what stands nowhere is of no account. -/
theorem State.Books.perm {s : State} {loose loose' fired : List Entry} (h : s.Books loose fired) (same : loose.Perm loose') :
    s.Books loose' fired :=
  h.moved rfl (fun _ => rfl) (fun P => by rw [same.countP_eq]) h.batches (fun _ => id) h.actions

/-- The entries are accounted for when the books are kept with what the record of one pair and the others hold loose. -/
theorem State.entriesCounted_of_held {t : State} (p : PairId) (books : t.Books ((t.proc p).held ++ t.heldElsewhere p) [])
    (asks : t.AsksOwn) : t.EntriesCounted :=
  t.entriesCounted_iff.2 ⟨books.perm (t.atRecords_perm p).symm, asks⟩

namespace State.Keeps

variable {s t u : State}

theorem refl (s : State) : s.Keeps s := ⟨id, fun _ => rfl, fun _ _ => .inl⟩

theorem trans (h : s.Keeps t) (h' : t.Keeps u) : s.Keeps u where
  books hs := h'.books (h.books hs)
  held p := (h'.held p).trans (h.held p)
  asks p e he := (h'.asks p e he).elim (h.asks p e) .inr

/-- What a command keeps, EntriesCounted among it. -/
theorem entriesCounted (h : s.Keeps t) (hs : s.EntriesCounted) : t.EntriesCounted := by
  obtain ⟨books, asks⟩ := s.entriesCounted_iff.1 hs
  have records : t.atRecords = s.atRecords := by simp only [State.atRecords_eq, h.held]
  exact t.entriesCounted_iff.2 ⟨records ▸ h.books books, fun p e he => (h.asks p e he).elim (asks p e) id⟩

/-- Something happens that the books do not speak of. -/
theorem elsewhere (same : t.ledger = s.ledger) : s.Keeps t where
  books h := h.of_ledger same
  held := congrFun (congrArg Ledger.held same)
  asks p e he := by
    have asked : (t.proc p).entry = (s.proc p).entry := congrFun (congrArg Ledger.asked same) p
    exact .inl (asked ▸ he)

/-- Entries move, and no record in progress changes what it asks for or holds. -/
theorem of_desks (books : ∀ {loose fired}, s.Books loose fired → t.Books loose fired) (desks : t.desks = s.desks) : s.Keeps t where
  books := books
  held p := congrArg Prod.snd (congrFun desks p)
  asks p e he := by
    have asked : (t.proc p).entry = (s.proc p).entry := congrArg Prod.fst (congrFun desks p)
    exact .inl (asked ▸ he)

/-! ### Records in progress -/

/-- A record that holds no entry goes where it holds none. -/
theorem setProc (p : PairId) (x : Proc) (empty : (s.proc p).held = []) (none : x.held = []) (own : ∀ e ∈ x.entry, e.owner = p) :
    s.Keeps (s.setProc p x) where
  books h := h.moved rfl (fun _ => rfl) (fun _ => rfl) h.batches (fun _ => id) h.actions
  held q := by
    rw [State.setProc_proc]
    split
    · next same => subst same; rw [none, empty]
    · rfl
  asks q e he := by
    rw [State.setProc_proc] at he
    split at he
    · next same => subst same; exact .inr (own e he)
    · exact .inl he

/-- A record that holds no entry hands its ack. -/
theorem handAck (p : PairId) (st : Status) (d n : Nat) (empty : (s.proc p).held = []) : s.Keeps (s.handAck p st d n) := by
  unfold State.handAck
  split
  · exact (elsewhere (s.handReport_ledger p _)).trans (setProc p _ empty rfl (Proc.owner_of_entry_nil rfl))
  · exact refl s

/-- A record that holds no entry goes to a phase in which it holds none. -/
theorem setPhase (p : PairId) (ph : Phase) (empty : (s.proc p).held = []) (none : ∀ k c, (Proc.busy k c ph).held = [])
    (own : ∀ k c, ∀ e ∈ (Proc.busy k c ph).entry, e.owner = p) : s.Keeps (s.setPhase p ph) := by
  unfold State.setPhase
  split
  · exact setProc p _ empty (none ..) (own _ _)
  · exact refl s

end State.Keeps

/-- A record in a phase that holds no entry. -/
theorem Proc.held_of_phase {x : Proc} {ph : Phase} (h : x.phase = some ph) (none : ∀ k c, (Proc.busy k c ph).held = []) : x.held = [] := by
  cases x with
  | idle => rfl
  | busy k c ph' => cases h; exact none k c

namespace State.Keeps

variable {s t u : State}

/-- After a change that keeps the entries, a record hands its ack. -/
theorem ack (h : s.Keeps u) {p : PairId} {st : Status} {d n : Nat} (empty : (s.proc p).held = []) : s.Keeps (u.handAck p st d n) :=
  h.trans (handAck p st d n ((h.held p).trans empty))

theorem of_next (h : (.next u : Host.Outcome State Fault Refusal) = .next t) (hu : s.Keeps u) : s.Keeps t := by
  cases h
  exact hu

/-- A write to the register window does its work while READY is 1 (R142). -/
theorem whenReady (f : State → State) (h : s.Keeps (f s)) : s.Keeps (s.whenReady f) := by
  unfold State.whenReady
  split
  · exact refl s
  · exact h

/-- A record that answers the outstanding read begins at an idle processor (R155). -/
theorem startRecord (one : s.OneRecord) (r : Record) (e : FetchRead) (he : s.engine = some e) : s.Keeps (s.startRecord e.pair r) := by
  have idle : s.proc e.pair = .idle := one.1 e.pair ((State.granted_iff he _).2 rfl)
  have advanced : s.Keeps (s.updPair e.pair fun q => { q with sqHead := ((s.pair e.pair).sqHead + 1) % (s.pair e.pair).sqSize }) :=
    elsewhere (s.updPair_ledger _ _ Iff.rfl)
  have begun := advanced.trans (setProc e.pair (.busy (r.byte 0) r.cookie .acked) (congrArg Proc.held idle) rfl (Proc.owner_of_entry_nil rfl))
  exact begun.trans (elsewhere rfl)

/-- A record keeps the entries when what it does past step 3 does (R170). -/
theorem onRecord (one : s.OneRecord) (r : Record) (k : Kind) (f : PairId → State → State)
    (h : ∀ p (u : State), (u.proc p).held = [] → u.Keeps (f p u)) : s.Keeps (s.onRecord r k f) := by
  unfold State.onRecord
  split
  · next p hp =>
    obtain ⟨e, he, rfl⟩ : ∃ e, s.engine = some e ∧ e.pair = p := by
      unfold State.fetchedFor at hp
      split at hp
      · next e he =>
        split at hp
        · cases hp; exact ⟨e, he, rfl⟩
        · cases hp
      · cases hp
    have empty : ((s.startRecord e.pair r).proc e.pair).held = [] := by simp [Proc.held]
    refine (startRecord one r e he).trans ?_
    split
    · exact handAck _ _ _ _ empty
    · exact h _ _ empty
  · exact refl s

/-- A record of a configured axis keeps the entries when what it does there does. -/
theorem onAxis (one : s.OneRecord) (r : Record) (k : Kind) (f : PairId → AxisId → AxisConfig → State → State)
    (h : ∀ p a g (u : State), (u.proc p).held = [] → u.Keeps (f p a g u)) : s.Keeps (s.onAxis r k f) :=
  onRecord one r k _ fun p u empty => by
    split
    · exact h p _ _ u empty
    · exact handAck _ _ _ _ empty

theorem timeOut (p : PairId) : s.Keeps (s.timeOut p) := by
  unfold State.timeOut
  split
  · next hp =>
    split
    · exact handAck _ _ _ _ (Proc.held_of_phase hp fun _ _ => rfl)
    · exact refl s
  · exact refl s

theorem abortBarrier (p : PairId) : s.Keeps (s.abortBarrier p) := by
  unfold State.abortBarrier
  split
  · next hp => exact handAck _ _ _ _ (Proc.held_of_phase hp fun _ _ => rfl)
  · exact refl s

theorem endCancel (p : PairId) (x : Removing) (empty : (s.proc p).held = []) : s.Keeps (s.endCancel p x) := by
  unfold State.endCancel
  split
  all_goals exact handAck _ _ _ _ empty

/-! ### Errors (R143, R148) -/

theorem dropSnapshot : s.Keeps s.dropSnapshot := by
  unfold State.dropSnapshot
  split
  · next hp =>
    split
    · have dropped : s.Keeps { s with writeQ := s.writeQ.filter fun w => !w.isSnapshot } := elsewhere rfl
      exact dropped.ack (Proc.held_of_phase hp fun _ _ => rfl)
    · exact refl s
  · exact refl s

theorem setFault (c : ErrorCause) : s.Keeps (s.setFault c) := by
  unfold State.setFault
  split
  · exact refl s
  · have flushed : s.Keeps (({ s with fault := some c } : State).flushCq 0) := elsewhere (State.flushCq_ledger _ 0)
    exact flushed.trans dropSnapshot

theorem pairError (p : PairId) (c : ErrorCause) : s.Keeps (s.pairError p c) := by
  unfold State.pairError
  split
  · exact setFault c
  · exact elsewhere (s.setCause_ledger p c)

/-! ### Register writes -/

theorem writeSqPost (p : PairId) (v : W32) : s.Keeps (s.writeSqPost p v) := by
  have posted (q : PairId) (n : Nat) : s.Keeps (s.updPair q fun x => { x with sqPost := n }) :=
    elsewhere (s.updPair_ledger q _ Iff.rfl)
  unfold State.writeSqPost
  dsimp only
  repeat' split
  · exact posted ..
  · exact setFault _
  · exact posted ..
  · exact elsewhere (s.setCause_ledger p _)
  · exact refl s

theorem writeCqDone (p : PairId) (v : W32) : s.Keeps (s.writeCqDone p v) := by
  unfold State.writeCqDone
  dsimp only
  repeat' split
  · exact refl s
  · exact elsewhere (s.updPair_ledger p _ Iff.rfl)
  · exact pairError p _

theorem writeNqDone (v : W32) : s.Keeps (s.writeNqDone v) := by
  unfold State.writeNqDone
  dsimp only
  repeat' split
  all_goals exact elsewhere rfl

theorem writeStatusBlockBase (access : Access) (v : W64) : s.Keeps (s.writeStatusBlockBase access v) := by
  unfold State.writeStatusBlockBase
  split
  all_goals exact elsewhere rfl

theorem writeAdminSqBase (access : Access) (v : W64) : s.Keeps (s.writeAdminSqBase access v) := by
  unfold State.writeAdminSqBase
  split
  · refine elsewhere ?_
    rw [State.restartAdminSq_ledger]
    exact s.updPair_ledger 0 _ Iff.rfl
  · exact refl s

theorem writeAdminCqBase (access : Access) (v : W64) : s.Keeps (s.writeAdminCqBase access v) := by
  unfold State.writeAdminCqBase
  split
  · refine elsewhere ?_
    rw [State.restartAdminCq_ledger]
    exact s.updPair_ledger 0 _ Iff.rfl
  · exact refl s

theorem writeAdminSizes (v : W32) : s.Keeps (s.writeAdminSizes v) := by
  unfold State.writeAdminSizes
  dsimp only
  split
  · refine elsewhere ?_
    rw [State.restartAdminCq_ledger, State.restartAdminSq_ledger]
    exact s.updPair_ledger 0 _ Iff.rfl
  · exact refl s

/-- A write by offset is the write of its register, but for one that starts a soft reset (R142, R143). -/
theorem writeRegister (offset : BitVec 12) (v : W64) (h : (Instr.registerWrite offset v).isReset = false) :
    s.Keeps (s.writeRegister offset v) := by
  have control (ho : offset.toNat = 0x010) : s.Keeps (s.writeControl (v.truncate 32)) := by
    have offset_eq : offset = 0x010 := BitVec.eq_of_toNat_eq ho
    have bit : (v.truncate 32).getLsbD 1 = false := by simpa [Instr.isReset, offset_eq] using h
    unfold State.writeControl
    rw [bit]
    exact elsewhere rfl
  have branch {c : Prop} [Decidable c] {t u : State} (ht : c → s.Keeps t) (hu : s.Keeps u) : s.Keeps (if c then t else u) := by
    split
    · next h => exact ht h
    · exact hu
  exact branch control <| branch (fun _ => writeStatusBlockBase ..) <| branch (fun _ => writeStatusBlockBase ..) <|
    branch (fun _ => writeAdminSqBase ..) <| branch (fun _ => writeAdminSqBase ..) <| branch (fun _ => writeAdminCqBase ..) <|
    branch (fun _ => writeAdminCqBase ..) <| branch (fun _ => writeAdminSizes ..) <| branch (fun _ => elsewhere rfl) <|
    branch (fun _ => writeSqPost ..) <| branch (fun _ => writeCqDone ..) <| branch (fun _ => writeNqDone ..) (refl s)

end State.Keeps
end Sys2Proof.Machine

namespace Sys2Proof.Machine

/-- A message taken leaves the activations of the lists and their discarding sets alone (R79, R151). -/
theorem State.takeListMsg_pending (s : State) (a b : AxisId) (m : ListMsg) :
    ((s.takeListMsg a m).clist b).activations = (s.clist b).activations ∧
      ((s.takeListMsg a m).clist b).discarding = (s.clist b).discarding := by
  cases m with
  | count k =>
    unfold State.takeListMsg
    rw [(FiresOnly.crossing (s.popInbox a) a k).2 b, State.popInbox, State.updList_clist]
    split <;> simp_all
  | freeze => simp only [State.takeListMsg, State.popInbox, State.updList_clist]; split <;> simp_all
  | unfreeze => simp only [State.takeListMsg, State.popInbox, State.updList_clist]; split <;> simp_all

/-- The list's taking of its count events leaves the activations and the discarding set alone (R79, R151). -/
theorem State.takeCounts_pending (s : State) (a b : AxisId) :
    ((s.takeCounts a).clist b).activations = (s.clist b).activations ∧
      ((s.takeCounts a).clist b).discarding = (s.clist b).discarding :=
  State.takeCounts_keeps
    (fun u => (u.clist b).activations = (s.clist b).activations ∧ (u.clist b).discarding = (s.clist b).discarding) a
    (fun u m _ h _ => ⟨(u.takeListMsg_pending a b m).1.trans h.1, (u.takeListMsg_pending a b m).2.trans h.2⟩) s ⟨rfl, rfl⟩

/-- A line that takes a count event keeps its reference count, and takes no action that it did not have (R111). -/
theorem Line.takeCount_counts (l : Line) :
    l.takeCount.refCount = l.refCount ∧ (l.takeCount.fromList ≠ [] → l.fromList ≠ []) := by
  unfold Line.takeCount
  split
  · rw [Line.takeAxisMsg_frame, Line.actBefore_frame]
    refine ⟨rfl, fun some none => some ?_⟩
    change l.fromList.dropWhile _ = []
    rw [none, List.dropWhile_nil]
  · exact ⟨rfl, id⟩

/-- The entry of an ARM_DEFERRED is its pair's (R176). -/
theorem State.owner_of_armDeferredTest {s : State} {r : Record} {p : PairId} {w : Waiting} (h : s.armDeferredTest r p = .inr w) :
    w.entry.owner = p := by
  unfold State.armDeferredTest at h
  split at h
  · cases h
  · dsimp only at h
    repeat' split at h
    all_goals cases h
    all_goals rfl

namespace State.Keeps

variable {s t u : State}

/-! ### Lists, channels and lines -/

theorem takeListMsg (a : AxisId) (m : ListMsg) : s.Keeps (s.takeListMsg a m) :=
  of_desks (fun h => h.takeListMsg a m) (s.takeListMsg_desks a m)

theorem takeCounts (a : AxisId) : s.Keeps (s.takeCounts a) :=
  State.takeCounts_keeps (fun u => s.Keeps u) a (fun _ m _ h _ => h.trans (takeListMsg a m)) s (refl s)

theorem listBefore (n : LineId) : s.Keeps (s.listBefore n) :=
  State.listBefore_keeps (fun u => s.Keeps u) (fun _ a m _ h _ => h.trans (takeListMsg a m)) s n (refl s)

theorem takeDue : s.Keeps s.takeDue :=
  State.takeDue_keeps (fun u => s.Keeps u) (fun u a h => h.trans (elsewhere (u.prescaleTick_ledger a)))
    (fun _ a m _ h _ => h.trans (takeListMsg a m)) (fun u n h => h.trans (elsewhere (u.endTickPulse_ledger n)))
    (fun _ p h => h.trans (timeOut p)) (fun u fb h => h.trans (elsewhere (u.takeCheck_ledger fb))) s (refl s)

/-- A line changes, but for its reference count, and no action comes to it that had none. -/
theorem updLine (n : LineId) (f : Line → Line) (refs : (f (s.line n)).refCount = (s.line n).refCount)
    (actions : (f (s.line n)).fromList ≠ [] → (s.line n).fromList ≠ []) : s.Keeps (s.updLine n f) :=
  of_desks (fun h => h.updLine n f refs actions) rfl

theorem removeArmed (a : AxisId) (reaches : Entry → Bool) : s.Keeps (s.removeArmed a reaches) :=
  of_desks (fun h => h.removeArmed a reaches) (s.removeArmed_desks a reaches)

/-- What a removal does at a channel keeps the entries when it keeps the books. -/
theorem removeWaiting (p : PairId) (c : ChanId) (reaches : Entry → Bool) (f : Channel → Channel)
    (h : ∀ {loose fired}, s.Books loose fired → (s.removeWaiting p c reaches f).Books loose fired) :
    s.Keeps (s.removeWaiting p c reaches f) := by
  refine of_desks h ?_
  have answered (u : State) (b : Block) (n : Nat) : (u.answer p b n).desks = u.desks :=
    u.updProcs_desks _ fun q x => by
      split
      · exact x.answered_desk ..
      · exact ⟨rfl, rfl⟩
  rw [State.removeWaiting, answered, State.releaseAll_desks, State.updChan_desks]

theorem captureEdge (c : ChanId) (g : ChanConfig) : s.Keeps (s.captureEdge c g) := by
  refine of_desks (fun h => h.captureEdge c g) ?_
  have reported (u : State) (k : Capture) (n : Nat) (held unclaimed : Bool) :
      (u.reportCapture c g k n held unclaimed).desks = u.desks := by
    unfold State.reportCapture; split <;> rfl
  unfold State.captureEdge State.afterLatch
  dsimp only
  repeat' split
  all_goals simp [reported]

/-- Every channel changes, but for its batches. -/
theorem updChans (f : ChanId → Channel → Channel) (h : ∀ c x, (f c x).batches = x.batches) : s.Keeps (s.updChans f) :=
  elsewhere (State.ledger_eq rfl (fun _ => ⟨rfl, rfl⟩) (fun c => by rw [State.updChans_chan, h]) (fun _ => ⟨rfl, rfl⟩)
    (fun _ => Iff.rfl) fun _ => ⟨rfl, rfl⟩)

/-- The next entry of an activation is inserted, or retired for a pair that is being discarded (R79, R151). -/
theorem activation (a : AxisId) (which : Nat) (k : Activation) (w : Waiting) (rest : List Waiting) (g : AxisConfig)
    (hk : (s.clist a).activations[which]? = some k) (hw : k.entries = w :: rest) :
    s.Keeps ((s.updList a fun l => l.takeActivated which).retire w.entry) ∧
      s.Keeps ((s.updList a fun l => l.takeActivated which).insertActivated a w k.origin g) :=
  ⟨of_desks (fun h => (h.takeActivated a which k w rest hk hw).retire) (by simp),
    of_desks (fun h => (h.takeActivated a which k w rest hk hw).insertActivated w a k.origin g) (by simp)⟩

/-- A CAPTURE_CONFIG that is taken, or refused, at its channel (R85, R86). -/
theorem configureChan (p : PairId) (c : ChanId) (config : Option ChanConfig) (discard : Bool) (empty : (s.proc p).held = []) :
    s.Keeps (s.configureChan p c config discard) := by
  have fresh (x : Channel) (hx : x.batches = []) : s.Keeps ((s.updChan c fun _ => x).releaseAll (s.chan c).waiting) :=
    of_desks (fun h => h.freshChan c x hx) (by simp)
  unfold State.configureChan
  dsimp only
  split
  · next g =>
    split
    · exact handAck _ _ _ _ empty
    · next none =>
      rw [ne_eq, not_not] at none
      have enabled := fresh (enabledChannel g s.pins.cin[g.input]) rfl
      rw [none] at enabled
      exact enabled.ack empty
  · split
    · exact handAck _ _ _ _ empty
    · exact (fresh (blankChannel (s.chan c).ref) rfl).ack empty

/-! ### Pairs (R149, R151) -/

theorem makePair (q : PairId) (r : Record) (absent : (s.pair q).state = .absent) :
    s.Keeps (((s.updPair q fun _ => Record.newPair r).setQuota q (r.u16 36)).queueZeros q) := by
  refine of_desks (fun {loose fired} h => ?_) rfl
  have empty : s.pool.live[q] = 0 := Nat.le_zero.1 ((h.quota q).trans (h.absent q absent).le)
  have made := h.setQuota q (r.u16 36) empty (fun _ => Record.newPair r) nofun
  have queued (u : State) : (u.queueZeros q).ledger = u.ledger := rfl
  exact made.of_ledger (queued _)

theorem becomeAbsent (q : PairId) (empty : s.pool.live[q] = 0) : s.Keeps (s.becomeAbsent q) := by
  refine of_desks (fun h => h.becomeAbsent q empty) ?_
  funext p
  simp [State.desks]

theorem takeRequest (p : PairId) (q : CqRequest) (handed : q.isAck = true → (s.proc p).phase = some .acked) :
    s.Keeps (s.takeRequest p q) := by
  cases q with
  | fire f => exact elsewhere (s.takeReport_ledger p _)
  | retire r => exact elsewhere (s.takeReport_ledger p _)
  | ack k =>
    have idle : s.Keeps (s.setProc p .idle) := setProc p .idle (Proc.held_of_phase (handed rfl) fun _ _ => rfl) rfl (Proc.owner_of_entry_nil rfl)
    refine idle.trans (elsewhere ?_)
    change (s.takeAck p (.ack k)).ledger = _
    unfold State.takeAck
    dsimp only
    repeat' split
    · rfl
    · exact State.updPair_ledger _ p _ Iff.rfl
    · rw [State.acceptCq_ledger]
      exact State.updPair_ledger _ p _ Iff.rfl

end State.Keeps

/-! ### The commands -/

namespace State.Keeps

variable {s t : State}

theorem inputReferenceUpdate (input : InputId) (level : Bool) (h : exec (.inputReferenceUpdate input level) s = .next t) :
    s.Keeps t := by
  have referred : s.Keeps (s.updChans (s.referred input level)) :=
    updChans _ fun c x => by rw [State.referred_frame]; rfl
  exact of_next h (referred.trans (elsewhere rfl))

theorem lockoutEnd (c : ChanId) (h : exec (.lockoutEnd c) s = .next t) : s.Keeps t := by
  refine .of_next h ?_
  split
  · refine .elsewhere (s.updChan_ledger c _ ?_)
    unfold Channel.countEvent
    repeat' split
    all_goals rfl
  · exact .refl s

theorem channelAxisConfig (c : ChanId) (h : exec (.channelAxisConfig c) s = .next t) : s.Keeps t := by
  refine .of_next h ?_
  split
  · refine .elsewhere (s.updChan_ledger c _ ?_)
    unfold Channel.axisConfigured
    split
    all_goals rfl
  · exact .refl s

theorem pulseEndCount (n : LineId) (h : exec (.pulseEndCount n) s = .next t) : s.Keeps t := by
  refine .of_next h ?_
  split
  · exact State.Keeps.trans (.listBefore n) (.updLine n _ (Line.takeCount_counts _).1 (Line.takeCount_counts _).2)
  · exact .refl s

theorem activationInsertion (a : AxisId) (which : Nat) (h : exec (.activationInsertion a which) s = .next t) : s.Keeps t := by
  refine .of_next h ?_
  have kept : ((s.takeCounts a).clist a).activations = (s.clist a).activations := (s.takeCounts_pending a a).1
  split
  · next k hk =>
    split
    · next w rest g hw _ =>
      dsimp only
      have inserted := State.Keeps.activation (s := s.takeCounts a) a which k w rest g (kept ▸ hk) hw
      split
      · refine State.Keeps.trans (.takeCounts a) (inserted.1.trans (.elsewhere (State.updProcs_ledger _ _ fun p x => ?_)))
        split
        · exact x.addDiscarded_desk _
        · exact ⟨rfl, rfl⟩
      · exact State.Keeps.trans (.takeCounts a) inserted.2
    · exact .refl s
  · exact .refl s

theorem listCancel (a : AxisId) (p : PairId) (h : exec (.listCancel a p) s = .next t) : s.Keeps t := by
  refine .of_next h ?_
  split
  · split
    · exact State.Keeps.trans (.removeArmed ..) (.elsewhere (State.answer_ledger ..))
    · exact .refl s
  · exact .refl s

theorem listCancelAxis (a : AxisId) (h : exec (.listCancelAxis a) s = .next t) : s.Keeps t := by
  refine .of_next h ?_
  split
  · split
    · exact State.Keeps.trans (.removeArmed ..) (.elsewhere (State.answer_ledger ..))
    · exact .refl s
  · exact .refl s

theorem listDiscardPair (a : AxisId) (h : exec (.listDiscardPair a) s = .next t) : s.Keeps t := by
  refine .of_next h ?_
  split
  · split
    · have placed (u : State) (q : PairId) : (u.updList a fun l =>
          { l with discarding := if l.discarding.contains q then l.discarding else q :: l.discarding }).ledger = u.ledger :=
        u.updList_ledger a _ rfl rfl
      exact State.Keeps.trans (.removeArmed ..) (.elsewhere ((State.answer_ledger ..).trans (placed ..)))
    · exact .refl s
  · exact .refl s

theorem channelCancel (c : ChanId) (p : PairId) (h : exec (.channelCancel c p) s = .next t) : s.Keeps t := by
  refine .of_next h ?_
  split
  · repeat' split
    · exact .removeWaiting _ _ _ _ fun hb => hb.cancelWaiting ..
    · exact .elsewhere (State.answerExcluded_ledger ..)
    · exact .refl s
  · exact .refl s

theorem channelCancelAxis (c : ChanId) (h : exec (.channelCancelAxis c) s = .next t) : s.Keeps t := by
  refine .of_next h ?_
  split
  · repeat' split
    · exact .removeWaiting _ _ _ _ fun hb => hb.emptyWaiting ..
    · exact .elsewhere (State.answerExcluded_ledger ..)
    · exact .refl s
  · exact .refl s

theorem channelDiscardPair (c : ChanId) (h : exec (.channelDiscardPair c) s = .next t) : s.Keeps t := by
  refine .of_next h ?_
  split
  · split
    · exact .removeWaiting _ _ _ _ fun hb => hb.discardWaiting ..
    · exact .refl s
  · exact .refl s

theorem lineHostWrite (p : PairId) (h : exec (.lineHostWrite p) s = .next t) : s.Keeps t := by
  refine .of_next h ?_
  split
  · next n action hp =>
    have empty : (s.proc p).held = [] := Proc.held_of_phase hp fun _ _ => rfl
    repeat' split
    · exact .handAck _ _ _ _ empty
    · exact .handAck _ _ _ _ empty
    · refine State.Keeps.ack (.elsewhere (s.updLine_ledger n _ ?_ ?_)) empty
      all_goals rw [Line.act_frame]
  · exact .refl s

theorem removalAnswer (p : PairId) (h : exec (.removalAnswer p) s = .next t) : s.Keeps t := by
  refine .of_next h ?_
  dsimp only
  split
  · next hp =>
    have empty : (s.proc p).held = [] := Proc.held_of_phase hp fun _ _ => rfl
    repeat' split
    · exact .endCancel p _ empty
    · exact .setPhase p _ empty (fun _ _ => rfl) fun _ _ => Proc.owner_of_entry_nil rfl
    · exact .refl s
  · next hp =>
    have empty : (s.proc p).held = [] := Proc.held_of_phase hp fun _ _ => rfl
    repeat' split
    · exact .handAck _ _ _ _ empty
    · exact .setPhase p _ empty (fun _ _ => rfl) fun _ _ => Proc.owner_of_entry_nil rfl
    · exact .refl s
  · next hp =>
    split
    · exact .setPhase p _ (Proc.held_of_phase hp fun _ _ => rfl) (fun _ _ => rfl) fun _ _ => Proc.owner_of_entry_nil rfl
    · exact .refl s
  · exact .refl s

theorem barrierReleaseNotice (p : PairId) (h : exec (.barrierReleaseNotice p) s = .next t) : s.Keeps t := by
  refine .of_next h ?_
  split
  · next hp =>
    have empty : (s.proc p).held = [] := Proc.held_of_phase hp fun _ _ => rfl
    repeat' split
    · exact .handAck _ _ _ _ empty
    · exact .setPhase p _ empty (fun _ _ => rfl) fun _ _ => Proc.owner_of_entry_nil rfl
    · exact .setPhase p _ empty (fun _ _ => rfl) fun _ _ => Proc.owner_of_entry_nil rfl
    · exact .refl s
  · exact .refl s

theorem drainEnd (one : s.OneRecord) (h : exec .drainEnd s = .next t) : s.Keeps t := by
  refine .of_next h ?_
  split
  · next p discard hp =>
    have empty : (s.proc 0).held = [] := Proc.held_of_phase hp fun _ _ => rfl
    repeat' split
    · exact .refl s
    · exact .setPhase 0 _ empty (fun _ _ => rfl) fun _ _ => Proc.owner_of_entry_nil rfl
    · next none => exact State.Keeps.ack (.becomeAbsent p none) empty
    · have draining : (s.pair p).state = .draining := (one.2.2.2.2.1 p (by simp [Proc.deleting, hp])).2
      refine State.Keeps.ack (.elsewhere (s.updPair_ledger p _ ?_)) empty
      rw [draining, Pair.undrained]
      split <;> simp
  · exact .refl s

theorem discardComplete (h : exec .discardComplete s = .next t) : s.Keeps t := by
  refine .of_next h ?_
  split
  · next p x n hp =>
    split
    · next done => exact State.Keeps.ack (.becomeAbsent p done.2) (Proc.held_of_phase hp fun _ _ => rfl)
    · exact .refl s
  · exact .refl s

theorem fetchGrant (h : exec .fetchGrant s = .next t) : s.Keeps t := by
  refine .of_next h ?_
  repeat' split
  · exact .refl s
  · exact .elsewhere (s.grant_ledger _)
  · exact .refl s

theorem fetchBusError (h : exec .fetchBusError s = .next t) : s.Keeps t := by
  refine .of_next h ?_
  split
  · exact State.Keeps.trans (.elsewhere (s.endRead_ledger _)) (.pairError ..)
  · exact .refl s

theorem fetchReadDiscarded (h : exec .fetchReadDiscarded s = .next t) : s.Keeps t := by
  refine .of_next h ?_
  repeat' split
  · exact .elsewhere (s.endRead_ledger _)
  · exact .refl s
  · exact .refl s

theorem postCompletion (one : s.OneRecord) (p : PairId) (h : exec (.postCompletion p) s = .next t) : s.Keeps t := by
  refine .of_next h ?_
  split
  · next q rest hq =>
    refine State.Keeps.trans (.elsewhere (s.setRequests_ledger p rest)) (.takeRequest p q fun ack => ?_)
    have handed := one.2.2.1 p
    by_contra running
    have none : (s.proc p).acksHanded = 0 := if_neg running
    rw [hq, none, List.countP_cons_of_pos ack] at handed
    cases handed
  · exact .refl s

theorem recordWriteError (h : exec .recordWriteError s = .next t) : s.Keeps t := by
  refine .of_next h ?_
  split
  · next ring _ _ _ _ _ _ =>
    split
    · exact .elsewhere rfl
    · cases ring with
      | nq => exact .elsewhere rfl
      | cq p =>
        have counted : (s.endWrite.updPair p Pair.countStopped).ledger = s.ledger := State.updPair_ledger _ p _ Iff.rfl
        exact State.Keeps.trans (.elsewhere counted) (.pairError p _)
  · exact .refl s

theorem statusBlockWriteDone (h : exec .statusBlockWriteDone s = .next t) : s.Keeps t := by
  refine .of_next h ?_
  repeat' split
  · exact .elsewhere (State.answerStatus_ledger ..)
  · exact .refl s
  · exact .refl s

theorem statusBlockWriteError (h : exec .statusBlockWriteError s = .next t) : s.Keeps t := by
  refine .of_next h ?_
  repeat' split
  · exact State.Keeps.trans (.elsewhere (State.answerStatus_ledger s.endWrite _ _)) (.setFault _)
  · exact .refl s
  · exact .refl s

theorem badKind (one : s.OneRecord) (r : Record) (h : exec (.badKind r) s = .next t) : s.Keeps t := by
  refine .of_next h ?_
  split
  · next p hp =>
    obtain ⟨e, he, rfl⟩ : ∃ e, s.engine = some e ∧ e.pair = p := by
      unfold State.badKindFor at hp
      split at hp
      · next e he =>
        split at hp
        · cases hp; exact ⟨e, he, rfl⟩
        · cases hp
      · cases hp
    exact (State.Keeps.startRecord one r e he).trans (.handAck _ _ _ _ (by simp [Proc.held]))
  · exact .refl s

theorem createPair (one : s.OneRecord) (r : Record) (h : exec (.createPair r) s = .next t) : s.Keeps t := by
  refine .of_next h (.onRecord one r _ _ fun p u empty => ?_)
  dsimp only
  split
  · exact .handAck _ _ _ _ empty
  · next absent => exact State.Keeps.ack (.makePair (r.pairAt 8) r (by simpa using absent)) empty

theorem deletePair (one : s.OneRecord) (r : Record) (h : exec (.deletePair r) s = .next t) : s.Keeps t := by
  refine .of_next h (.onRecord one r _ _ fun p u empty => ?_)
  dsimp only
  split
  · exact .handAck _ _ _ _ empty
  · next present =>
    have drained : u.Keeps (u.updPair (r.pairAt 8) fun x => { x with state := .draining }) :=
      .elsewhere (u.updPair_ledger _ _ (by simp [present]))
    have aborted := drained.trans (.abortBarrier (r.pairAt 8))
    exact aborted.trans (.setPhase p _ ((aborted.held p).trans empty) (fun _ _ => rfl) fun _ _ => Proc.owner_of_entry_nil rfl)

theorem query (one : s.OneRecord) (r : Record) (fb : Vector Bool 16) (h : exec (.query r fb) s = .next t) : s.Keeps t := by
  refine .of_next h (.onRecord one r _ _ fun p u empty => ?_)
  have settled (q : QueryOf) (addr : W64) :
      u.Keeps (({ u with pins := { u.pins with fb := fb } }.settle q).queueSnapshot q addr) :=
    .elsewhere (State.settle_ledger _ q)
  exact (settled _ _).trans (.setPhase p _ (((settled _ _).held p).trans empty) (fun _ _ => rfl) fun _ _ => Proc.owner_of_entry_nil rfl)

theorem arm (one : s.OneRecord) (r : Record) (h : exec (.arm r) s = .next t) : s.Keeps t := by
  refine .of_next h (.onRecord one r _ _ fun p u empty => ?_)
  dsimp only
  split
  · exact .handAck _ _ _ _ empty
  · exact .setPhase p _ empty (fun _ _ => rfl) fun _ _ e he => by rw [List.mem_singleton.1 he]; rfl

theorem armDeferred (one : s.OneRecord) (r : Record) (h : exec (.armDeferred r) s = .next t) : s.Keeps t := by
  refine .of_next h (.onRecord one r _ _ fun p u empty => ?_)
  split
  · exact .handAck _ _ _ _ empty
  · next w hw =>
    refine .setPhase p _ empty (fun _ _ => rfl) fun _ _ e he => ?_
    rw [List.mem_singleton.1 he]
    exact State.owner_of_armDeferredTest hw

theorem barrier (one : s.OneRecord) (r : Record) (h : exec (.barrier r) s = .next t) : s.Keeps t := by
  refine .of_next h (.onRecord one r _ _ fun p u empty => ?_)
  dsimp only
  split
  · exact .handAck _ _ _ _ empty
  · exact .setPhase p _ empty (fun _ _ => rfl) fun _ _ => Proc.owner_of_entry_nil rfl

theorem captureConfig (one : s.OneRecord) (r : Record) (h : exec (.captureConfig r) s = .next t) : s.Keeps t := by
  refine .of_next h (.onRecord one r _ _ fun p u empty => ?_)
  dsimp only
  repeat' split
  · exact .handAck _ _ _ _ empty
  · exact .configureChan _ _ _ _ empty
  · exact .configureChan _ _ _ _ empty

theorem lineConfig (one : s.OneRecord) (r : Record) (h : exec (.lineConfig r) s = .next t) : s.Keeps t := by
  refine .of_next h (.onRecord one r _ _ fun p u empty => ?_)
  dsimp only
  repeat' split
  · exact .handAck _ _ _ _ empty
  · exact .handAck _ _ _ _ empty
  · refine State.Keeps.ack (.elsewhere (u.updLine_ledger _ _ ?_ ?_)) empty
    all_goals
      unfold Line.configured
      dsimp only
      split <;> rfl

end State.Keeps

end Sys2Proof.Machine

namespace Sys2Proof

/-- The commands that give an entry to a record, or take it from one (R41, R175, R176). -/
def Instr.handsEntry : Instr → Bool
  | .allocation _ | .insertion _ | .append _ => true
  | _ => false

theorem Instr.handsEntry_cases (c : Instr) (h : c.handsEntry = true) :
    (∃ p, c = .allocation p) ∨ (∃ p, c = .insertion p) ∨ ∃ p, c = .append p := by
  unfold Instr.handsEntry at h
  split at h
  · exact .inl ⟨_, rfl⟩
  · exact .inr (.inl ⟨_, rfl⟩)
  · exact .inr (.inr ⟨_, rfl⟩)
  · cases h

end Sys2Proof

namespace Sys2Proof.Machine

/-- Every command but a reset and those that hand an entry over keeps the entries. -/
theorem exec_keeps (c : Instr) (s t : State) (one : s.OneRecord) (hc : c.isReset = false) (hands : c.handsEntry = false)
    (h : exec c s = .next t) : s.Keeps t := by
  cases c
  case fullReset | softReset => cases hc
  case allocation | insertion | append => cases hands
  case tick =>
    refine .of_next h ?_
    split
    · exact .refl s
    · exact State.Keeps.takeDue.trans (.elsewhere (State.advanceTime_ledger _))
  case registerWrite offset v => exact .of_next h (.whenReady _ (.writeRegister offset v hc))
  case enableWrite | irqMaskWrite => exact .of_next h (.whenReady _ (.elsewhere rfl))
  case statusBlockBaseWrite => exact .of_next h (.whenReady _ (.writeStatusBlockBase ..))
  case adminSqBaseWrite => exact .of_next h (.whenReady _ (.writeAdminSqBase ..))
  case adminCqBaseWrite => exact .of_next h (.whenReady _ (.writeAdminCqBase ..))
  case adminSizesWrite => exact .of_next h (.whenReady _ (.writeAdminSizes _))
  case sqPostWrite => exact .of_next h (.whenReady _ (.writeSqPost ..))
  case cqDoneWrite => exact .of_next h (.whenReady _ (.writeCqDone ..))
  case nqDoneWrite => exact .of_next h (.whenReady _ (.writeNqDone _))
  case holdInAssertAxis => exact .of_next h (.elsewhere (by rw [State.hold_ledger]; rfl))
  case holdInDeassertAxis => exact .of_next h (.elsewhere rfl)
  case holdInAssertLine n =>
    refine .of_next h ?_
    have forced : (s.updLine n fun l =>
        let l := { l with holdIn := true }
        if l.isHost then l.force else l).ledger = s.ledger := s.updLine_ledger n _ (Line.ite_force _).1 (Line.ite_force _).2
    exact .elsewhere forced
  case holdInDeassertLine n =>
    have released : (s.updLine n fun l => { l with holdIn := false }.unforce).ledger = s.ledger :=
      s.updLine_ledger n _ (Line.unforce_counts _).1 (Line.unforce_counts _).2
    exact .of_next h (.elsewhere released)
  case inputReferenceUpdate input level => exact .inputReferenceUpdate input level h
  case lockoutEnd c => exact .lockoutEnd c h
  case channelAxisConfig c => exact .channelAxisConfig c h
  case captureEdge c level =>
    refine .of_next h ?_
    split
    · exact State.Keeps.trans (.elsewhere (s.takeLevel_ledger ..)) (.captureEdge ..)
    · exact .refl s
  case listCountEvent | listFreeze | listUnfreeze =>
    refine .of_next h ?_
    split
    · exact .takeListMsg ..
    · exact .refl s
  case lineFireAction n =>
    refine .of_next h ?_
    split
    · next f rest hf =>
      refine .updLine n _ ?_ fun _ => by rw [hf]; exact List.cons_ne_nil _ _
      rw [Line.takeAction_frame]
    · exact .refl s
  case pulseEndCount n => exact .pulseEndCount n h
  case pulseEndTick n => exact .of_next h (.elsewhere (by simp))
  case lineAxisStop | lineAxisHeld | lineAxisResumed =>
    refine .of_next h ?_
    split
    · refine .elsewhere (s.updLine_ledger _ _ ?_ ?_)
      all_goals rw [Line.takeAxisMsg_frame]
    · exact .refl s
  case lineTripNotice | lineReleaseNotice =>
    refine .of_next h ?_
    split
    · exact .elsewhere (by simp)
    · exact .refl s
  case activationInsertion a which => exact .activationInsertion a which h
  case listCancel a p => exact .listCancel a p h
  case listCancelAxis a => exact .listCancelAxis a h
  case listDiscardPair a => exact .listDiscardPair a h
  case channelCancel c p => exact .channelCancel c p h
  case channelCancelAxis c => exact .channelCancelAxis c h
  case channelDiscardPair c => exact .channelDiscardPair c h
  case lineHostWrite p => exact .lineHostWrite p h
  case removalAnswer p => exact .removalAnswer p h
  case barrierReleaseNotice p => exact .barrierReleaseNotice p h
  case barrierTimeout p => exact .of_next h (.timeOut p)
  case drainEnd => exact .drainEnd one h
  case discardComplete => exact .discardComplete h
  case fetchGrant => exact .fetchGrant h
  case fetchBusError => exact .fetchBusError h
  case fetchReadDiscarded => exact .fetchReadDiscarded h
  case postCompletion p => exact .postCompletion one p h
  case postNotice =>
    refine .of_next h ?_
    split
    · exact .elsewhere (State.takeNotification_ledger ..)
    · exact .refl s
  case writeIssue =>
    refine .of_next h ?_
    split <;> exact .elsewhere rfl
  case recordWriteDone =>
    refine .of_next h ?_
    repeat' split
    all_goals exact .elsewhere rfl
  case recordWriteError => exact .recordWriteError h
  case statusBlockWriteDone => exact .statusBlockWriteDone h
  case statusBlockWriteError => exact .statusBlockWriteError h
  case queryWriteDone =>
    refine .of_next h ?_
    split
    · next hp => exact State.Keeps.ack (.elsewhere s.endWrite_ledger) (Proc.held_of_phase hp fun _ _ => rfl)
    · exact .refl s
  case badKind r => exact .badKind one r h
  case createPair r => exact .createPair one r h
  case deletePair r => exact .deletePair one r h
  case setNoticeRing r => exact .of_next h (.onRecord one r _ _ fun p u empty => .ack (.elsewhere (u.setNotices_ledger ..)) empty)
  case query r fb => exact .query one r fb h
  case arm r => exact .arm one r h
  case armDeferred r => exact .armDeferred one r h
  case barrier r => exact .barrier one r h
  case cancel | lineWrite =>
    exact .of_next h (.onRecord one _ _ _ fun p u empty => .setPhase p _ empty (fun _ _ => rfl) fun _ _ => Proc.owner_of_entry_nil rfl)
  case cancelAxis => exact .of_next h (.onAxis one _ _ _ fun p a g u empty => .setPhase p _ empty (fun _ _ => rfl) fun _ _ => Proc.owner_of_entry_nil rfl)
  case nop => exact .of_next h (.onRecord one _ _ _ fun p u empty => .handAck _ _ _ _ empty)
  case monitorGlobal => exact .of_next h (.onRecord one _ _ _ fun p u empty => .ack (.elsewhere (u.setGlobal_ledger ..)) empty)
  case captureConfig r => exact .captureConfig one r h
  case lineConfig r => exact .lineConfig one r h
  case axisConfig =>
    refine .of_next h (.onRecord one _ _ _ fun p u empty => ?_)
    split
    all_goals exact State.Keeps.ack (.elsewhere (by simp)) empty
  case monitorConfig | monitorRelease =>
    refine .of_next h (.onRecord one _ _ _ fun p u empty => ?_)
    dsimp only
    repeat' split
    all_goals exact State.Keeps.ack (.elsewhere (by simp)) empty
  case axisStart | axisStop | axisHalt | axisResume | axisSetPosition | axisHome =>
    refine .of_next h (.onAxis one _ _ _ fun p a g u empty => ?_)
    repeat' split
    all_goals exact State.Keeps.ack (.elsewhere (by simp)) empty
  case resetDone =>
    refine .of_next h (.elsewhere ?_)
    split <;> rfl
  all_goals -- the commands of the Axis Units and of the Monitor Table
    refine .of_next h (.elsewhere ?_)
    repeat' split
    all_goals simp

end Sys2Proof.Machine

namespace Sys2Proof.Machine

/-! ### The commands that hand an entry over (R41, R68, R95) -/

section
variable {s t : State}

/-- The entry that a record asks for, or holds, is its pair's. -/
theorem State.AsksOwn.owner (h : s.AsksOwn) {p : PairId} {k : Byte} {c : W32} {ph : Phase} (hp : s.proc p = .busy k c ph) {e : Entry}
    (he : e ∈ (Proc.busy k c ph).entry) : e.owner = p := h p e (hp ▸ he)

/-- A record that is in a phase is in progress. -/
theorem Proc.busy_of_phase {x : Proc} {ph : Phase} (h : x.phase = some ph) : ∃ k c, x = .busy k c ph := by
  cases x with
  | idle => cases h
  | busy k c ph' => cases h; exact ⟨k, c, rfl⟩

/-- The processor of one pair has changed, to a record that asks for its own entry, and the books are kept with what it holds now. -/
theorem State.entriesCounted_of_setProc {u : State} (p : PairId) (x : Proc) (asks : s.AsksOwn) (desks : u.desks = s.desks)
    (own : ∀ e ∈ x.entry, e.owner = p) (books : u.Books (x.held ++ s.heldElsewhere p) []) : (u.setProc p x).EntriesCounted := by
  have held (q : PairId) : (u.proc q).held = (s.proc q).held := congrArg Prod.snd (congrFun desks q)
  have entry (q : PairId) : (u.proc q).entry = (s.proc q).entry := congrArg Prod.fst (congrFun desks q)
  refine State.entriesCounted_of_held p ?_ fun q e he => ?_
  · have elsewhere : (u.setProc p x).heldElsewhere p = s.heldElsewhere p := State.heldElsewhere_congr p fun q other => by
      rw [State.setProc_proc, if_neg (Ne.symm other), held]
    rw [elsewhere, State.setProc_proc, if_pos rfl]
    exact books.moved rfl (fun _ => rfl) (fun _ => rfl) books.batches (fun _ => id) books.actions
  · rw [State.setProc_proc] at he
    split at he
    · next same => subst same; exact own e he
    · exact asks q e (entry q ▸ he)

/-- The record that held an entry hands its ack, with the entry somewhere else or released. -/
theorem State.entriesCounted_of_handAck {u : State} (p : PairId) (st : Status) (d n : Nat) (asks : s.AsksOwn)
    (desks : u.desks = s.desks) (books : u.Books (s.heldElsewhere p) []) : (u.handAck p st d n).EntriesCounted := by
  unfold State.handAck
  split
  · exact State.entriesCounted_of_setProc p _ asks desks (Proc.owner_of_entry_nil rfl) (books.handReport p _)
  · next idle =>
    have same : u.setProc p .idle = u := by
      rw [← idle, State.setProc, State.proc]
      simp
    exact same ▸ State.entriesCounted_of_setProc p .idle asks desks (Proc.owner_of_entry_nil rfl) books

/-- ALLOCATION keeps the entries accounted for: the entry taken is the one that the record then holds (R41). -/
theorem State.allocate_entriesCounted {p : PairId} {k : Byte} {c : W32} {ph : Phase} {e : Entry} (hs : s.EntriesCounted)
    (x : Phase) (hp : s.proc p = .busy k c ph) (empty : (Proc.busy k c ph).held = []) (asked : e ∈ (Proc.busy k c ph).entry)
    (held : (Proc.busy k c x).held = [e]) (same : (Proc.busy k c x).entry = [e]) (test : s.allocationTest p e = none) :
    ((s.allocate p e).setPhase p x).EntriesCounted := by
  obtain ⟨books, asks⟩ := s.entriesCounted_iff.1 hs
  have own : e.owner = p := asks.owner hp asked
  have others : s.Books (s.heldElsewhere p) [] := books.perm (by simpa [hp, empty] using s.atRecords_perm p)
  obtain ⟨room, free⟩ : s.pool.live[p] < s.pool.quota[p] ∧ s.pool.free ≠ 0 := by
    unfold State.allocationTest at test
    split at test
    · cases test
    · split at test
      · cases test
      · omega
  have set : (s.allocate p e).setPhase p x = (s.allocate p e).setProc p (.busy k c x) := by
    unfold State.setPhase
    have : (s.allocate p e).proc p = .busy k c ph := hp
    rw [this]
  rw [set]
  refine State.entriesCounted_of_setProc p _ asks rfl (fun f hf => ?_) ?_
  · rw [same, List.mem_singleton] at hf
    rw [hf, own]
  · rw [held]
    exact others.allocate p own room free

theorem State.allocation_entriesCounted (hs : s.EntriesCounted) (p : PairId) (h : exec (.allocation p) s = .next t) : t.EntriesCounted := by
  obtain rfl := Host.Outcome.next.inj h
  split
  · next e pos hp =>
    split
    · exact State.Keeps.entriesCounted (.handAck _ _ _ _ (Proc.held_of_phase hp fun _ _ => rfl)) hs
    · next test =>
      obtain ⟨k, c, hx⟩ := Proc.busy_of_phase hp
      exact State.allocate_entriesCounted hs _ hx rfl (List.mem_singleton_self e) rfl rfl test
  · next w c close hp =>
    split
    · exact State.Keeps.entriesCounted (.handAck _ _ _ _ (Proc.held_of_phase hp fun _ _ => rfl)) hs
    · next test =>
      obtain ⟨k, c, hx⟩ := Proc.busy_of_phase hp
      exact State.allocate_entriesCounted hs _ hx rfl (List.mem_singleton_self w.entry) rfl rfl test
  · exact hs

/-- An insertion leaves the entry of the ARM armed, or fired, or released (R68 to R73). -/
theorem State.insertArm_entriesCounted {p : PairId} {e : Entry} {pos : Int} (hs : s.EntriesCounted)
    (hp : (s.proc p).held = [e]) (g : AxisConfig) : (s.insertArm p e pos g).EntriesCounted := by
  obtain ⟨books, asks⟩ := s.entriesCounted_iff.1 hs
  have loose : s.Books (e :: s.heldElsewhere p) [e] :=
    (books.perm (by simpa [hp] using s.atRecords_perm p)).more fun _ => nofun
  have answered {u : State} (st : Status) (d n : Nat) (desks : u.desks = s.desks) (hu : u.Books (s.heldElsewhere p) []) :
      (u.handAck p st d n).EntriesCounted := State.entriesCounted_of_handAck p st d n asks desks hu
  unfold State.insertArm
  dsimp only
  repeat' split
  · exact answered _ _ _ (by simp) loose.retire
  · exact answered _ _ _ (by simp) loose.retire
  · exact answered _ _ _ (by simp) loose.retire
  · exact answered _ _ _ (by simp) loose.retire
  · exact answered _ _ _ (by simp) (loose.fire ..)
  · exact answered _ _ _ (by simp) (loose.place ..)

/-- INSERTION keeps the entries accounted for (R68, R175). -/
theorem State.insertion_entriesCounted (hs : s.EntriesCounted) (p : PairId) (h : exec (.insertion p) s = .next t) : t.EntriesCounted := by
  obtain rfl := Host.Outcome.next.inj h
  split
  · next e pos hp =>
    split
    · have taken : s.Keeps (s.takeCounts e.axis) := .takeCounts e.axis
      obtain ⟨k, c, hx⟩ := Proc.busy_of_phase hp
      exact State.insertArm_entriesCounted (taken.entriesCounted hs) ((taken.held p).trans (congrArg Proc.held hx)) _
    · exact hs
  · exact hs

/-- APPEND keeps the entries accounted for: the entry joins a batch of its owner or is released (R95, R96). -/
theorem State.append_entriesCounted (hs : s.EntriesCounted) (p : PairId) (h : exec (.append p) s = .next t) : t.EntriesCounted := by
  obtain rfl := Host.Outcome.next.inj h
  split
  · next w c close hp =>
    obtain ⟨books, asks⟩ := s.entriesCounted_iff.1 hs
    obtain ⟨k, ck, hx⟩ := Proc.busy_of_phase hp
    have own : w.entry.owner = p := asks.owner hx (List.mem_singleton_self w.entry)
    have loose : s.Books (w.entry :: s.heldElsewhere p) [] := books.perm (by simpa [hx, Proc.held] using s.atRecords_perm p)
    split
    · exact State.entriesCounted_of_handAck p _ _ _ asks (by simp) (loose.refuse ..).release
    · next test => exact State.entriesCounted_of_handAck p _ _ _ asks (by simp) (loose.accept w p c _ close own test)
  · exact hs

/-- A reset frees every entry (R54, R166). -/
theorem State.cleared_entriesCounted (ts : Nat) (r : Option ResetCause) (c : ResetCause) (pins : Pins) (q : List Instr) :
    (State.cleared ts r c pins q).EntriesCounted := by
  have same : (State.cleared ts r c pins q).ledger = State.reset.ledger := by
    refine State.ledger_eq rfl (fun a => ?_) (fun x => ?_) (fun n => ?_) (fun p => ?_) fun p => ?_
    · simp [State.clist, State.cleared, State.reset]
    · simp [State.chan, State.cleared, State.reset, Channel.batches, blankChannel]
    · simp [State.line, State.cleared, State.reset, blankLine]
    · simp [State.pair, State.cleared, State.reset]
    · simp [State.proc, State.cleared, State.reset]
  exact State.Keeps.entriesCounted (.elsewhere same) State.reset_entriesCounted

/-- Every command keeps the entries accounted for, while each pair has one record at a time. -/
theorem exec_entriesCounted (c : Instr) (one : s.OneRecord) (hs : s.EntriesCounted) (h : exec c s = .next t) : t.EntriesCounted := by
  cases hc : c.isReset with
  | true =>
    rcases exec_of_isReset c s t hc h with rfl | ⟨ts, r, cause, pins, rfl⟩
    · exact hs
    · exact State.cleared_entriesCounted ..
  | false =>
    cases hands : c.handsEntry with
    | false => exact (exec_keeps c s t one hc hands h).entriesCounted hs
    | true =>
      rcases c.handsEntry_cases hands with ⟨p, rfl⟩ | ⟨p, rfl⟩ | ⟨p, rfl⟩
      · exact State.allocation_entriesCounted hs p h
      · exact State.insertion_entriesCounted hs p h
      · exact State.append_entriesCounted hs p h

end

/-- Settles O32: an entry that is live stands at a list, at a channel or at a record in progress, and the books, which count it there,
are kept through every move from one of these places to another. -/
theorem entriesStayAccountedFor : Obligations.EntriesStayAccountedFor := by
  intro s t one hs h
  unfold step at h
  split at h
  · next c rest _ =>
    have popped : State.Keeps s { s with pending := rest } := .elsewhere rfl
    exact exec_entriesCounted (s := { s with pending := rest }) c one (popped.entriesCounted hs) h
  · cases h
    exact hs

end Sys2Proof.Machine

namespace Sys2Proof.Machine

/-! ## What a fire leaves (R60 to R67) -/

/-- An entry once it has fired, before its repeat advance (R60). -/
def Entry.counted (e : Entry) : Entry := { e with occurrence := satAdd 65535 e.occurrence 1 }

/-- The retirement of an entry does not depend on its occurrence (R45). -/
theorem State.afterRetirements_counted (s : State) (e : Entry) : s.afterRetirements [e.counted] = s.afterRetirements [e] := by
  have told (x : Proc) (p : PairId) : x.told p s.pool.live s.ts [e.counted] = x.told p s.pool.live s.ts [e] := by
    have mine : ([e.counted].filter fun y => y.owner == p).map (fun y => (y.group, s.ts)) =
        ([e].filter fun y => y.owner == p).map fun y => (y.group, s.ts) := by
      simp only [List.filter_cons, List.filter_nil, Entry.counted]
      split <;> rfl
    simp only [Proc.told, mine]
    rfl
  simp only [State.afterRetirements, State.afterReleases, told]
  rfl

section
variable (s : State) (p : PairId)

/-- A pair's completion ring is handed nothing more. -/
theorem State.cqReq_set_self : s.cqReq.set p (s.requests p ++ []) = s.cqReq := by
  rw [List.append_nil]
  exact Vector.set_getElem_self _

/-- A report that is handed when a flag is on. -/
theorem State.handReport_if (b : Bool) (q : CqRequest) : (if b = true then s.handReport p q else s) =
    { s with cqReq := s.cqReq.set p (s.requests p ++ if b = true then [q] else []) } := by
  cases b with
  | false => simp only [Bool.false_eq_true, if_false, State.cqReq_set_self]
  | true => rfl

/-- Two reports in a row at one completion ring. -/
theorem State.cqReq_set_set (q r : List CqRequest) (u : State) (h : u.cqReq = s.cqReq.set p (s.requests p ++ q)) :
    u.cqReq.set p (u.requests p ++ r) = s.cqReq.set p (s.requests p ++ (q ++ r)) := by
  have waits : u.requests p = s.requests p ++ q := by
    rw [State.requests, h]
    simp
  rw [waits, h, Vector.set_set, List.append_assoc]

end

/-- What a fire hands to the completion ring of the entry's pair first: its FIRE report, if it is to report (R61). -/
def Entry.fireReport (e : Entry) (f : FirePoint) (reports : Bool) : List CqRequest :=
  if (reports && e.report) = true then
    [.fire ⟨e.axis, e.tag, f.pos, e.occurrence, f.dir, decide (e.repeatLeft = 0), f.serial, f.stamp⟩]
  else []

/-- The RETIRE report of an entry that has fired, if it reports (R65 to R67). -/
def Entry.endReport (e : Entry) (f : FirePoint) (pos : Int) (reason : Reason) : List CqRequest :=
  if e.report = true then [.retire ⟨e.axis, e.tag, pos, satAdd 65535 e.occurrence 1, reason, f.serial, f.stamp⟩] else []

section
variable (s : State) (a : AxisId) (k : AxisKind) (e : Entry) (order : Option Nat) (f : FirePoint) (reports : Bool)

/-- The state once an entry that fires has sent its action to its line and its report to its pair (R60, R61). -/
def State.fired : State :=
  { s.sendAction e.line ⟨e.action, f.serial, f.stamp⟩ with
    cqReq := s.cqReq.set e.owner (s.requests e.owner ++ e.fireReport f reports) }

/-- A fire goes on with the entry's last occurrence, or with its repeat advance (R60). -/
theorem State.fire_eq : s.fire a k e order f reports =
    if e.repeatLeft = 0 then (s.fired e f reports).retire e.counted
    else (s.fired e f reports).advance a k e.counted order f := by
  unfold State.fire
  dsimp only
  rw [State.handReport_if]
  rfl

/-- The last fire of an entry releases it (R60). -/
theorem State.fire_last (last : e.repeatLeft = 0) : s.fire a k e order f reports =
    { (s.sendAction e.line ⟨e.action, f.serial, f.stamp⟩).afterRetirements [e] with
      cqReq := s.cqReq.set e.owner (s.requests e.owner ++ e.fireReport f reports) } := by
  rw [State.fire_eq, if_pos last, State.retire_eq, State.afterRetirements_counted]
  rfl

/-- The fire of an entry with repeats left places it again (R64). -/
theorem State.fire_placed (n : Nat) (again : e.repeatLeft = n + 1) (q : Int) (target : k.target f.pos (e.pitch.getD 0) = some q)
    (room : (s.clist a).crowded q = false) : s.fire a k e order f reports =
    { s.sendAction e.line ⟨e.action, f.serial, f.stamp⟩ with
      lists := s.lists.set a ((s.clist a).place { e with repeatLeft := n, occurrence := satAdd 65535 e.occurrence 1 } q order)
      cqReq := s.cqReq.set e.owner (s.requests e.owner ++ e.fireReport f reports) } := by
  have clist : (s.fired e f reports).clist a = s.clist a := rfl
  have pitch : e.counted.pitch = e.pitch := rfl
  have left : e.counted.repeatLeft = n + 1 := again
  rw [State.fire_eq, if_neg (by omega), State.advance, pitch, target]
  dsimp only
  rw [clist, room, left]
  rfl

/-- The fire of an entry with repeats left retires it where it cannot be placed again (R65, R66). -/
theorem State.fire_retired (n : Nat) (again : e.repeatLeft = n + 1) (pos : Int) (reason : Reason)
    (ends : (k.target f.pos (e.pitch.getD 0) = some pos ∧ (s.clist a).crowded pos = true ∧ reason = .endCrowded) ∨
      (k.target f.pos (e.pitch.getD 0) = none ∧ pos = f.pos ∧ reason = .endRange)) : s.fire a k e order f reports =
    { (s.sendAction e.line ⟨e.action, f.serial, f.stamp⟩).afterRetirements [e] with
      cqReq := s.cqReq.set e.owner (s.requests e.owner ++ (e.fireReport f reports ++ e.endReport f pos reason)) } := by
  have clist : (s.fired e f reports).clist a = s.clist a := rfl
  have told : (s.fired e f reports).advance a k e.counted order f =
      ((s.fired e f reports).reportRetire e.counted reason pos f.serial f.stamp).retire e.counted := by
    have pitch : e.counted.pitch = e.pitch := rfl
    unfold State.advance
    rw [pitch]
    rcases ends with ⟨target, crowded, rfl⟩ | ⟨target, rfl, rfl⟩
    · rw [target]
      dsimp only
      rw [clist, crowded, if_pos rfl]
    · rw [target]
  have handed : (s.fired e f reports).reportRetire e.counted reason pos f.serial f.stamp = { s.fired e f reports with
      cqReq := s.cqReq.set e.owner (s.requests e.owner ++ (e.fireReport f reports ++ e.endReport f pos reason)) } :=
    (State.handReport_if ..).trans (congrArg (fun q => ({ s.fired e f reports with cqReq := q } : State))
      (s.cqReq_set_set e.owner (e.fireReport f reports) (e.endReport f pos reason) (s.fired e f reports) rfl))
  rw [State.fire_eq, if_neg (by omega), told, State.retire_eq, State.afterRetirements_counted, handed]
  rfl

end

/-! ## Count events (R59 to R67) -/

/-- A crowded position (R56). -/
theorem CList.crowded_iff (l : CList) (pos : Int) : l.crowded pos = true ↔ 8 ≤ l.entries.countP fun x => x.pos == pos := by
  rw [CList.crowded, decide_eq_true_iff]
  rfl

/-- LIST_COUNT_EVENT at a list that is not frozen: its firing entries fire one after another (R59). -/
theorem exec_listCountEvent_fires {s : State} {a : AxisId} {k : Count} {g : AxisConfig} {rest : List ListMsg}
    (h : (s.clist a).inbox = .count k :: rest) (live : (s.clist a).frozen = false) (hg : (s.axis a).config = some g) :
    exec (.listCountEvent a) s = .next (((s.clist a).firing k).foldl (State.fireArmed a g.kind k)
      { s with lists := s.lists.set a { s.clist a with inbox := rest } }) := by
  have popped : s.popInbox a = { s with lists := s.lists.set a { s.clist a with inbox := rest } } := by
    simp only [State.popInbox, State.updList, h, List.tail_cons]
  have here : (s.popInbox a).clist a = { s.clist a with inbox := rest } := by simp [State.popInbox, h]
  have config : ((s.popInbox a).axis a).config = some g := hg
  refine (exec_listMsg s a (.count k) rest h).trans (congrArg _ ?_)
  rw [State.takeListMsg, State.crossing, here, live, config, ← popped]
  rfl

/-- On a list in its order, entries at one position stand in arm order (R55). -/
theorem State.ListsInOrder.firing_pairwise {s : State} (h : s.ListsInOrder) (a : AxisId) (k : Count) :
    ((s.clist a).firing k).Pairwise fun y z => y.order ≤ z.order := by
  refine ((h a).1.filter _).imp_of_mem fun {y z} hy hz before => ?_
  have at_pos {x : Armed} (hx : x ∈ (s.clist a).firing k) : x.pos = k.pos := by
    have := (List.mem_filter.1 hx).2
    simp only [Bool.and_eq_true, beq_iff_eq] at this
    exact this.1
  rcases before with before | ⟨-, before⟩
  · rw [at_pos hy, at_pos hz] at before
    exact absurd before (lt_irrefl _)
  · exact before

/-- Settles O25: the firing entries of a list in its order stand in arm order, and a last fire ends in a release. -/
theorem oneShotEntryFiresAndIsReleased : Obligations.OneShotEntryFiresAndIsReleased := by
  intro s a k g
  refine ⟨fun rest h live hg => ⟨exec_listCountEvent_fires h live hg, fun order => order.firing_pairwise a k⟩, fun x last => ?last,
    fun q d => ?accepts⟩
  case last =>
    dsimp only
    rw [State.fireArmed, State.fire_last _ _ _ _ _ _ _ last]
    simp only [Entry.fireReport, last, Bool.true_and, decide_true]
    rfl
  case accepts => cases q <;> cases d <;> decide

end Sys2Proof.Machine

namespace Sys2Proof.Machine

/-- The target of an advance by less than a turn goes round the axis at most once (R64). -/
theorem AxisKind.target_rotary (m : Nat) (pos pitch : Int) (low : 0 ≤ pos) (high : pos < m) (back : -m < pitch) (ahead : pitch < m) :
    (AxisKind.rotary m).target pos pitch =
      some (if pos + pitch < 0 then pos + pitch + m else if pos + pitch < m then pos + pitch else pos + pitch - m) := by
  refine congrArg some ?_
  split
  · rw [← Int.add_emod_right, Int.emod_eq_of_lt (by omega) (by omega)]
  · split
    · exact Int.emod_eq_of_lt (by omega) (by omega)
    · rw [← Int.sub_emod_right, Int.emod_eq_of_lt (by omega) (by omega)]

theorem AxisKind.target_linear (pos pitch : Int) : AxisKind.linear.target pos pitch =
    if -(2 ^ 31) ≤ pos + pitch ∧ pos + pitch ≤ 2 ^ 31 - 1 then some (pos + pitch) else none := by
  simp only [AxisKind.target, linearRange, decide_eq_true_eq]

/-- What an entry with repeats left reports of its fire (R61). -/
theorem Entry.fireReport_again {e : Entry} {n : Nat} (again : e.repeatLeft = n + 1) (f : FirePoint) : e.fireReport f true =
    if e.report = true then [.fire ⟨e.axis, e.tag, f.pos, e.occurrence, f.dir, false, f.serial, f.stamp⟩] else [] := by
  simp only [Entry.fireReport, again, Bool.true_and, Nat.add_one_ne_zero, decide_false]

/-- Two reports that one flag lets through. -/
theorem reports_append (c : Prop) [Decidable c] (q r : CqRequest) :
    (if c then [q] else []) ++ (if c then [r] else []) = if c then [q, r] else [] := by
  split <;> rfl

/-- Settles O26, by the outcome of the repeat advance: placed again, crowded, or out of range. -/
theorem repeatingEntryAdvancesOrRetires : Obligations.RepeatingEntryAdvancesOrRetires := by
  intro s a k g x n d l e left e' reports fire sent t again pitch
  have here : ((s.updList a fun l => l.remove x).clist a).entries = left := by simp [CList.remove, left, l]
  have target (q : Option Int) (h : g.kind.target k.pos d = q) : g.kind.target k.pos (e.pitch.getD 0) = q := by
    rw [pitch]; exact h
  refine ⟨fun u rest h live hg alone hs => ?event, fun q hq room => ?placed, fun q r ends => ?retired,
    fun pos pitch => ⟨AxisKind.target_linear pos pitch, fun m => AxisKind.target_rotary m pos pitch⟩⟩
  case event =>
    rw [exec_listCountEvent_fires h live hg, CList.firing, alone, ← hs]
    rfl
  case placed =>
    have free : ((s.updList a fun l => l.remove x).clist a).crowded q = false := by
      rw [Bool.eq_false_iff, ne_eq, CList.crowded_iff, here]
      omega
    refine (State.fire_placed _ a g.kind e (some x.order) _ true n again q (target _ hq) free).trans ?_
    rw [Entry.fireReport_again again]
    simp [State.updList, State.clist, CList.place, CList.remove, State.sendAction, State.updLine, State.line, State.requests, l, e', left,
      reports, fire, sent, satAdd, e]
  case retired =>
    rcases ends with ⟨hq, crowded, rfl⟩ | ⟨hq, rfl⟩
    · have full : ((s.updList a fun l => l.remove x).clist a).crowded q = true := by
        rw [CList.crowded_iff, here]
        exact crowded
      refine (State.fire_retired _ a g.kind e (some x.order) _ true n again q .endCrowded (.inl ⟨target _ hq, full, rfl⟩)).trans ?_
      rw [Entry.fireReport_again again, Entry.endReport, reports_append]
      rfl
    · refine (State.fire_retired _ a g.kind e (some x.order) _ true n again k.pos .endRange (.inr ⟨target _ hq, rfl, rfl⟩)).trans ?_
      rw [Entry.fireReport_again again, Entry.endReport, reports_append]
      rfl

end Sys2Proof.Machine

namespace Sys2Proof.Machine

/-! ## Allocation (R41) -/

/-- What follows the tests of an allocation, in their order (R41). -/
theorem State.allocationTest_elim {β : Type} (s : State) (p : PairId) (e : Entry) (grant : β) (refuse : Status → β) :
    (s.allocationTest p e).elim grant refuse =
      if s.pool.quota[p] ≤ s.pool.live[p] then refuse .quotaFull
      else if s.pool.free = 0 then refuse .poolEmpty
      else match (s.line e.line).config with
        | .compare b _ => if b = e.axis then grant else refuse .lineAxis
        | _ => refuse .lineMode := by
  unfold State.allocationTest
  split
  · rfl
  · split
    · rfl
    · exact lineTest_elim (s.line e.line) e.axis grant refuse

/-- ALLOCATION for an ARM (R41). -/
theorem exec_allocation_arm {s : State} {p : PairId} {e : Entry} {pos : Int} (h : (s.proc p).phase = some (.allocateArm e pos)) :
    exec (.allocation p) s = .next ((s.allocationTest p e).elim ((s.allocate p e).setPhase p (.inserting e pos))
      fun st => s.handAck p st 0 s.ts) := by
  have meaning : exec (.allocation p) s = execAllocation p s := rfl
  rw [meaning, execAllocation, h]
  dsimp only
  cases s.allocationTest p e <;> rfl

/-- ALLOCATION for an ARM_DEFERRED (R41). -/
theorem exec_allocation_deferred {s : State} {p : PairId} {w : Waiting} {c : ChanId} {close : Bool}
    (h : (s.proc p).phase = some (.allocateDeferred w c close)) :
    exec (.allocation p) s = .next ((s.allocationTest p w.entry).elim ((s.allocate p w.entry).setPhase p (.appending w c close))
      fun st => s.handAck p st 0 s.ts) := by
  have meaning : exec (.allocation p) s = execAllocation p s := rfl
  rw [meaning, execAllocation, h]
  dsimp only
  cases s.allocationTest p w.entry <;> rfl

/-- Settles O27: the phase of the record says for which entry the tests are made, and what the record does with the entry it gets. -/
theorem allocationTakesAFreeEntry : Obligations.AllocationTakesAFreeEntry := by
  intro s p kd ck e ph granted answer hp
  have running : (s.proc p).phase = some ph := by rw [hp]; rfl
  have ack (st : Status) : s.handAck p st 0 s.ts = s.withAck p kd ck st 0 s.ts := s.handAck_busy p kd ck ph st 0 s.ts hp
  have answered (next : Phase) : (s.allocationTest p e).elim ((s.allocate p e).setPhase p next) (fun st => s.handAck p st 0 s.ts) =
      answer next := by
    rw [(s.allocate p e).setPhase_busy p kd ck ph next hp, State.allocationTest_elim]
    simp only [ack]
    rfl
  refine ⟨fun pos h => ?arm, fun off c close h => ?deferred⟩
  case arm =>
    subst h
    exact (exec_allocation_arm running).trans (congrArg _ (answered _))
  case deferred =>
    subst h
    exact (exec_allocation_deferred running).trans (congrArg _ (answered _))

end Sys2Proof.Machine

namespace Sys2Proof.Machine

/-! ## What the list's taking of its count events leaves a record (R57, R168) -/

/-- A record that is told nothing when entries are released: no BARRIER, and no DELETE_PAIR that waits for the pair's last entry
(R45, R183). -/
def Proc.Deaf (x : Proc) : Prop := ∀ p live ts es, x.told p live ts es = x

theorem Proc.deaf_inserting (kd : Byte) (ck : W32) (e : Entry) (pos : Int) : (Proc.busy kd ck (.inserting e pos)).Deaf :=
  fun _ _ _ _ => rfl

section
variable {s : State} {p : PairId}

theorem State.afterRetirements_proc (es : List Entry) (q : PairId) :
    (s.afterRetirements es).proc q = (s.proc q).told q s.pool.live s.ts es := by
  simp [State.afterRetirements, State.afterReleases, State.proc]

theorem State.retire_proc_deaf (deaf : (s.proc p).Deaf) (e : Entry) : (s.retire e).proc p = s.proc p := by
  rw [State.retire_eq, State.afterRetirements_proc]
  exact deaf ..

/-- A fire tells such a record nothing. -/
theorem State.fire_proc_deaf (deaf : (s.proc p).Deaf) (a : AxisId) (k : AxisKind) (e : Entry) (order : Option Nat) (f : FirePoint)
    (reports : Bool) : (s.fire a k e order f reports).proc p = s.proc p := by
  have retired (u : State) (e : Entry) (h : u.proc p = s.proc p) : (u.retire e).proc p = s.proc p := by
    rw [State.retire_proc_deaf (h ▸ deaf), h]
  have told (e : Entry) (r : Reason) (pos : Int) (serial stamp : Nat) (u : State) (h : u.proc p = s.proc p) :
      (u.reportRetire e r pos serial stamp).proc p = s.proc p := by
    unfold State.reportRetire
    split <;> exact h
  have sent : (s.fired e f reports).proc p = s.proc p := rfl
  rw [State.fire_eq]
  split
  · exact retired _ _ sent
  · unfold State.advance
    repeat' split
    · exact retired _ _ (told _ _ _ _ _ _ sent)
    · exact retired _ _ (told _ _ _ _ _ _ sent)
    · exact sent

/-- A message that the list takes tells such a record nothing. -/
theorem State.takeListMsg_proc_deaf (deaf : (s.proc p).Deaf) (a : AxisId) (m : ListMsg) : (s.takeListMsg a m).proc p = s.proc p := by
  cases m with
  | freeze => rfl
  | unfreeze => rfl
  | count k =>
    unfold State.takeListMsg State.crossing
    dsimp only
    repeat' split
    · rfl
    · refine List.foldlRecOn (motive := fun u : State => u.proc p = s.proc p) _ _ rfl fun u hu x _ => ?_
      have removed : (u.updList a fun l => l.remove x).proc p = s.proc p := hu
      exact (State.fire_proc_deaf (removed ▸ deaf) ..).trans removed
    · rfl

theorem State.takeCounts_proc_deaf (deaf : (s.proc p).Deaf) (a : AxisId) : (s.takeCounts a).proc p = s.proc p :=
  State.takeCounts_keeps (fun u => u.proc p = s.proc p) a
    (fun _ m _ h _ => (State.takeListMsg_proc_deaf (h ▸ deaf) a m).trans h) s rfl

/-- Once it has taken its count events, the list has none to take. -/
theorem State.takeCounts_takeCounts (s : State) (a : AxisId) : (s.takeCounts a).takeCounts a = s.takeCounts a :=
  State.takeCounts_none _ a fun k => s.takeCounts_done a k

end

/-! ## Insertion (R68 to R74) -/

theorem posOutside_iff (k : AxisKind) (pos : Int) : posOutside k pos = true ↔ ∃ m : Nat, k = .rotary m ∧ (pos < 0 ∨ m ≤ pos) := by
  cases k with
  | linear => simp [posOutside]
  | rotary m =>
    simp only [posOutside, Bool.not_eq_true', decide_eq_false_iff_not, AxisKind.rotary.injEq, exists_eq_left']
    omega

theorem pitchTooWide_iff (k : AxisKind) (e : Entry) :
    pitchTooWide k e = true ↔ ∃ m d, k = .rotary m ∧ e.pitch = some d ∧ m ≤ d.natAbs := by
  cases k with
  | linear => simp [pitchTooWide]
  | rotary m => cases hp : e.pitch <;> simp [pitchTooWide, hp]

section
variable {s : State} {a : AxisId} {g : AxisConfig} {e : Entry} {pos : Int}

/-- An entry that is not late, or whose policy is WAIT, is armed, unless the position is crowded (R71, R73). -/
theorem State.placement_wait (h : s.lateTest a g e pos = none ∨ e.late = .wait) :
    s.placement a g e pos = if (s.clist a).crowded pos then .crowd else .arm := by
  unfold State.placement
  rcases h with h | h
  · rw [h]
  · rw [h]
    cases s.lateTest a g e pos <;> rfl

theorem State.placement_refuse (h : (s.lateTest a g e pos).isSome = true) (policy : e.late = .refuse) :
    s.placement a g e pos = .refuse := by
  obtain ⟨d, hd⟩ := Option.isSome_iff_exists.1 h
  unfold State.placement
  rw [hd, policy]

theorem State.placement_fire {d : Dir} (h : s.lateTest a g e pos = some d) (policy : e.late = .fire) :
    s.placement a g e pos = .fire d := by
  unfold State.placement
  rw [h, policy]

theorem CList.not_crowded {l : CList} (h : l.countAt pos < 8) : l.crowded pos = false := by
  rw [Bool.eq_false_iff, ne_eq, CList.crowded_iff]
  exact Nat.not_le.2 h

/-- INSERTION: the list takes its count events, and then the entry (R68, log 43). -/
theorem exec_insertion {p : PairId} {kd : Byte} {ck : W32} (hp : s.proc p = .busy kd ck (.inserting e pos))
    (hg : (s.axis e.axis).config = some g) : exec (.insertion p) s = .next ((s.takeCounts e.axis).insertArm p e pos g) := by
  have meaning : exec (.insertion p) s = execInsertion p s := rfl
  have phase : (s.proc p).phase = some (.inserting e pos) := by rw [hp]; rfl
  rw [meaning, execInsertion, phase]
  dsimp only
  rw [hg]

end

section
variable {s : State} {p : PairId} {kd : Byte} {ck : W32} {e : Entry} {pos : Int} {g : AxisConfig}

/-- An entry retired at its insertion, and its ack (R45, R172). -/
theorem State.retire_handAck (hp : s.proc p = .busy kd ck (.inserting e pos)) (st : Status) (d n : Nat) :
    (s.retire e).handAck p st d n = (s.afterRetirements [e]).withAck p kd ck st d n := by
  rw [State.retire_eq]
  refine State.handAck_busy _ p kd ck (.inserting e pos) st d n ?_
  rw [State.afterRetirements_proc, hp]
  rfl

/-- A late fire, and its ack (R72). -/
theorem State.fire_handAck (hp : s.proc p = .busy kd ck (.inserting e pos)) (a : AxisId) (k : AxisKind) (f : FirePoint) (st : Status)
    (d n : Nat) : (s.fire a k e none f false).handAck p st d n = (s.fire a k e none f false).withAck p kd ck st d n := by
  refine State.handAck_busy _ p kd ck (.inserting e pos) st d n ?_
  rw [State.fire_proc_deaf (hp ▸ Proc.deaf_inserting kd ck e pos), hp]

end

/-- Settles O29: the list takes its count events, and then each outcome of the tests is one equation of the insertion. -/
theorem insertionArmsOrAnswers : Obligations.InsertionArmsOrAnswers := by
  intro s p kd ck e pos g l retired sent fired hp hg
  refine ⟨?counts, fun none => ?quiet, posOutside_iff g.kind pos, pitchTooWide_iff g.kind e⟩
  case counts =>
    have running : (s.takeCounts e.axis).proc p = .busy kd ck (.inserting e pos) :=
      (State.takeCounts_proc_deaf (hp ▸ Proc.deaf_inserting kd ck e pos) e.axis).trans hp
    have config : ((s.takeCounts e.axis).axis e.axis).config = some g := by
      rw [State.axis, State.takeCounts_axes]; exact hg
    rw [exec_insertion hp hg, exec_insertion running config, State.takeCounts_takeCounts]
  case quiet =>
    rw [exec_insertion hp hg, s.takeCounts_none e.axis none]
    have retires (st : Status) (d : Nat) : (s.retire e).handAck p st d s.ts = retired st d := State.retire_handAck hp st d s.ts
    refine ⟨fun out => ?outside, fun inside wide => ?wide, fun inside narrow => ⟨fun wait room => ?armed, fun wait full => ?crowded,
      fun late policy => ?passed, fun late policy last => ?last, fun n d' late policy again pitch => ?again⟩⟩
    case outside => rw [State.insertArm, if_pos out, retires]
    case wide => rw [State.insertArm, if_neg (by simp [inside]), if_pos wide, retires]
    all_goals rw [State.insertArm, if_neg (by simp [inside]), if_neg (by simp [narrow])]
    case armed =>
      rw [State.placement_wait wait, CList.not_crowded room]
      exact congrArg _ (State.handAck_busy _ p kd ck _ _ _ _ hp)
    case crowded =>
      rw [State.placement_wait wait, (CList.crowded_iff _ _).2 full]
      exact congrArg _ (retires ..)
    case passed =>
      rw [State.placement_refuse late policy]
      exact congrArg _ (retires ..)
    case last =>
      obtain ⟨d, hd⟩ := Option.isSome_iff_exists.1 late
      rw [State.placement_fire hd policy]
      refine congrArg _ ((State.fire_handAck hp ..).trans ?_)
      rw [State.fire_last _ _ _ _ _ _ _ last]
      simp only [fired, ite_self]
      rfl
    case again =>
      obtain ⟨d, hd⟩ := Option.isSome_iff_exists.1 late
      rw [State.placement_fire hd policy]
      have target (x : Option Int) (h : g.kind.target pos d' = x) : g.kind.target pos (e.pitch.getD 0) = x := by rw [pitch]; exact h
      refine ⟨fun q hq room => ?_, fun q hq full => ?_, fun hq => ?_⟩
      · refine congrArg _ ((State.fire_handAck hp ..).trans ?_)
        rw [State.fire_placed _ _ _ _ _ _ _ n again q (target _ hq) (CList.not_crowded room)]
        have silent : e.fireReport (s.insertionPoint e.axis d pos) false = [] := rfl
        simp only [silent, State.cqReq_set_self]
        rfl
      · refine congrArg _ ((State.fire_handAck hp ..).trans ?_)
        rw [State.fire_retired _ _ _ _ _ _ _ n again q .endCrowded (.inl ⟨target _ hq, (CList.crowded_iff _ _).2 full, rfl⟩)]
        rfl
      · refine congrArg _ ((State.fire_handAck hp ..).trans ?_)
        rw [State.fire_retired _ _ _ _ _ _ _ n again pos .endRange (.inr ⟨target _ hq, rfl, rfl⟩)]
        rfl

end Sys2Proof.Machine

namespace Sys2Proof.Machine

/-! ## Activations (R79, R80) -/

/-- From `s` to `t` an entry has come or gone at one list: of the other lists, of the lines but its own, and of the completion rings but
its pair's, nothing has changed (R60, R68). -/
structure State.Serves (s t : State) (a : AxisId) (e : Entry) : Prop where
  frame : t = { s with lists := t.lists, pool := t.pool, lines := t.lines, procs := t.procs, cqReq := t.cqReq }
  lists : ∀ b, b ≠ a → t.clist b = s.clist b
  lines : ∀ n, n ≠ e.line → t.line n = s.line n
  rings : ∀ q, q ≠ e.owner → t.requests q = s.requests q

namespace State.Serves

variable {s t u : State} {a : AxisId} {e : Entry}

theorem trans (h : s.Serves t a e) (h' : t.Serves u a e) : s.Serves u a e where
  frame := by rw [h'.frame, h.frame]
  lists b hb := (h'.lists b hb).trans (h.lists b hb)
  lines n hn := (h'.lines n hn).trans (h.lines n hn)
  rings q hq := (h'.rings q hq).trans (h.rings q hq)

theorem updList (f : CList → CList) : s.Serves (s.updList a f) a e :=
  ⟨rfl, fun b hb => by rw [State.updList_clist, if_neg (Ne.symm hb)], fun _ _ => rfl, fun _ _ => rfl⟩

theorem updProcs (f : PairId → Proc → Proc) : s.Serves (s.updProcs f) a e :=
  ⟨rfl, fun _ _ => rfl, fun _ _ => rfl, fun _ _ => rfl⟩

theorem retire : s.Serves (s.retire e) a e :=
  ⟨rfl, fun _ _ => rfl, fun n hn => by rw [State.retire_line, if_neg (Ne.symm hn)], fun _ _ => rfl⟩

theorem handReport (q : CqRequest) : s.Serves (s.handReport e.owner q) a e :=
  ⟨rfl, fun _ _ => rfl, fun _ _ => rfl, fun p hp => by rw [State.handReport, State.setRequests_requests, if_neg (Ne.symm hp)]⟩

theorem reportRetire (r : Reason) (pos : Int) (serial stamp : Nat) : s.Serves (s.reportRetire e r pos serial stamp) a e := by
  unfold State.reportRetire
  split
  · exact handReport _
  · exact ⟨rfl, fun _ _ => rfl, fun _ _ => rfl, fun _ _ => rfl⟩

/-- A fire of the entry (R60). -/
theorem fire (k : AxisKind) (order : Option Nat) (f : FirePoint) (reports : Bool) : s.Serves (s.fire a k e order f reports) a e := by
  have acted : s.Serves (s.fired e f reports) a e := by
    refine ⟨rfl, fun _ _ => rfl, fun n hn => ?_, fun q hq => ?_⟩
    · change (s.updLine e.line fun l => { l with fromList := l.fromList ++ [⟨e.action, f.serial, f.stamp⟩] }).line n = s.line n
      rw [State.updLine_line, if_neg (Ne.symm hn)]
    · exact (State.setRequests_requests ..).trans (if_neg (Ne.symm hq))
  have goes (v : State) (h : (s.fired e f reports).Serves v a e.counted) : s.Serves v a e :=
    acted.trans ⟨h.frame, h.lists, h.lines, h.rings⟩
  rw [State.fire_eq]
  split
  · exact goes _ retire
  · unfold State.advance
    repeat' split
    · exact goes _ ((reportRetire ..).trans retire)
    · exact goes _ ((reportRetire ..).trans retire)
    · exact goes _ (updList _)

theorem insertActivated (w : Waiting) (origin : Int) (g : AxisConfig) : s.Serves (s.insertActivated a w origin g) a w.entry := by
  unfold State.insertActivated
  dsimp only
  repeat' split
  · exact (reportRetire ..).trans retire
  · exact (reportRetire ..).trans retire
  · exact (reportRetire ..).trans retire
  · exact (reportRetire ..).trans retire
  · exact fire ..
  · exact updList _

end State.Serves

theorem CList.takeActivated_eq {l : CList} {i : Nat} {k : Activation} {w : Waiting} {rest : List Waiting}
    (hk : l.activations[i]? = some k) (hw : k.entries = w :: rest) : l.takeActivated i =
    { l with activations := if rest = [] then l.activations.eraseIdx i else l.activations.set i { k with entries := rest } } := by
  cases rest <;> simp [CList.takeActivated, hk, hw]

/-- ACTIVATION_INSERTION: the list takes its count events, and then the next entry of the activation (R79, log 43). -/
theorem exec_activationInsertion {s : State} {a : AxisId} {i : Nat} {k : Activation} {w : Waiting} {rest : List Waiting} {g : AxisConfig}
    (hk : (s.clist a).activations[i]? = some k) (hw : k.entries = w :: rest) (hg : (s.axis a).config = some g) :
    exec (.activationInsertion a i) s = .next (
      if (s.clist a).discarding.contains w.entry.owner then
        (((s.takeCounts a).updList a fun l => l.takeActivated i).retire w.entry).updProcs fun p x =>
          if p = 0 then x.addDiscarded w.entry.owner else x
      else ((s.takeCounts a).updList a fun l => l.takeActivated i).insertActivated a w k.origin g) := by
  have meaning : exec (.activationInsertion a i) s = execActivationInsertion a i s := rfl
  have discarding := (s.takeCounts_pending a a).2
  rw [meaning, execActivationInsertion, hk]
  dsimp only
  rw [hw, hg]
  dsimp only
  rw [discarding]

/-- The position that an activation forms on a ROTARY axis differs from the sum by whole turns (R79). -/
theorem AxisKind.formed_rotary (m : Nat) (pos : 0 < m) (origin offset : Int) :
    ∃ p turns : Int, (AxisKind.rotary m).formed origin offset = some p ∧ 0 ≤ p ∧ p < m ∧ origin + offset = p + turns * m := by
  refine ⟨(origin + offset) % m, (origin + offset) / m, rfl, Int.emod_nonneg _ (by omega), Int.emod_lt_of_pos _ (by omega), ?_⟩
  rw [Int.mul_comm]
  exact (Int.emod_add_mul_ediv _ _).symm

/-- What a list's taking of an entry depends on (R68 to R73): the axis, and the list's freeze and entries. -/
theorem State.lateTest_congr {s t : State} {a : AxisId} (axis : t.axis a = s.axis a) (frozen : (t.clist a).frozen = (s.clist a).frozen)
    (g : AxisConfig) (e : Entry) (pos : Int) : t.lateTest a g e pos = s.lateTest a g e pos := by
  simp only [State.lateTest, axis, frozen]

/-- An entry of an activation that is retired unarmed, with its RETIRE report (R67, R79). -/
theorem State.reportRetire_retire (s : State) (e : Entry) (r : Reason) (pos : Int) (serial stamp : Nat) :
    (s.reportRetire e r pos serial stamp).retire e = { s.afterRetirements [e] with
      cqReq := s.cqReq.set e.owner (s.requests e.owner ++ if e.report = true then
        [.retire ⟨e.axis, e.tag, pos, e.occurrence, r, serial, stamp⟩] else []) } := by
  rw [State.retire_eq, State.reportRetire, State.handReport_if]
  rfl

/-- A line to which nothing more is sent. -/
theorem State.lines_set_self (s : State) (n : LineId) :
    s.lines.set n { s.line n with fromList := (s.line n).fromList ++ [] } = s.lines := by
  rw [List.append_nil]
  exact Vector.set_getElem_self _

/-- An entry retired for a pair that is being discarded adds to the number of entries retired (R151). -/
theorem Proc.addDiscarded_eq (x : Proc) (p : PairId) : x.addDiscarded p =
    match x with
    | .busy kd ck (.discarding q y z) => .busy kd ck (.discarding q (if q = p then { y with sum := y.sum + 1 } else y) z)
    | y => y := by
  cases x with
  | idle => rfl
  | busy kd ck ph =>
    cases ph with
    | discarding q y z => by_cases own : q = p <;> simp [Proc.addDiscarded, own]
    | _ => rfl

section
variable {s : State} {a : AxisId} {w : Waiting} {origin : Int} {g : AxisConfig}

/-- An entry whose position cannot be formed, or whose pitch is too wide, is retired (R79). -/
theorem State.insertActivated_out (h : pitchTooWide g.kind w.entry = true ∨ g.kind.formed origin w.offset = none) :
    s.insertActivated a w origin g = (s.reportRetire w.entry .actRange origin (s.axis a).serial s.ts).retire w.entry := by
  unfold State.insertActivated
  dsimp only
  split
  · rfl
  · next narrow => rw [h.resolve_left narrow]

/-- An entry at a position that is formed is placed, fires, or is retired (R68, R80). -/
theorem State.insertActivated_formed {pos : Int} (narrow : pitchTooWide g.kind w.entry = false)
    (formed : g.kind.formed origin w.offset = some pos) : s.insertActivated a w origin g =
    match s.placement a g w.entry pos with
    | .refuse => (s.reportRetire w.entry .actPassed pos (s.axis a).serial s.ts).retire w.entry
    | .crowd => (s.reportRetire w.entry .actCrowded pos (s.axis a).serial s.ts).retire w.entry
    | .fire d => s.fire a g.kind w.entry none (s.insertionPoint a d pos) true
    | .arm => s.updList a fun l => l.place w.entry pos none := by
  rw [State.insertActivated, if_neg (by simp [narrow]), formed] <;> rfl

end

/-- Settles O30: the list takes its count events, and then each outcome of the tests is one equation of the insertion. -/
theorem activationInsertsInBatchOrder : Obligations.ActivationInsertsInBatchOrder := by
  intro s a i k w rest g l e serial l' fired hk hw hg
  refine ⟨?counts, ?quiet⟩
  case counts =>
    have kept : ((s.takeCounts a).clist a).activations[i]? = some k := by rw [(s.takeCounts_pending a a).1]; exact hk
    have config : ((s.takeCounts a).axis a).config = some g := by rw [State.axis, State.takeCounts_axes]; exact hg
    rw [exec_activationInsertion hk hw hg, exec_activationInsertion kept hw config, State.takeCounts_takeCounts,
      (s.takeCounts_pending a a).2]
  case quiet =>
    intro none retired
    have dealt : (s.updList a fun l => l.takeActivated i) = { s with lists := s.lists.set a l' } := by
      rw [State.updList, CList.takeActivated_eq hk hw]
    generalize hd : ({ s with lists := s.lists.set a l' } : State) = dealtTo at dealt
    have here : dealtTo.clist a = l' := by simp [← hd, State.clist]
    have retires (r : Reason) (pos : Int) : (dealtTo.reportRetire e r pos serial s.ts).retire e =
        retired [] [.retire ⟨e.axis, e.tag, pos, e.occurrence, r, serial, s.ts⟩] := by
      rw [State.reportRetire_retire, ← hd]
      simp only [retired, State.lines_set_self]
      rfl
    have axis : (dealtTo.axis a).serial = serial := by rw [← hd]; rfl
    have now : dealtTo.ts = s.ts := by rw [← hd]
    have silent : dealtTo.retire e = retired [] [] := by
      rw [State.retire_eq, ← hd]
      simp only [retired, State.lines_set_self, ite_self, State.cqReq_set_self]
      rfl
    have serves : s.Serves dealtTo a e := dealt ▸ .updList _
    have late (pos : Int) : dealtTo.lateTest a g e pos = s.lateTest a g e pos :=
      State.lateTest_congr (by rw [← hd]; rfl) (by rw [here]) g e pos
    refine ⟨if l.discarding.contains e.owner then
        (retired [] []).updProcs fun p x => if p = 0 then x.addDiscarded e.owner else x
      else dealtTo.insertActivated a w k.origin g, ?next, ?rest⟩
    case next =>
      rw [exec_activationInsertion hk hw hg, s.takeCounts_none a none, dealt, ← silent]
    generalize ht : (if l.discarding.contains e.owner then
        (retired [] []).updProcs fun p x => if p = 0 then x.addDiscarded e.owner else x
      else dealtTo.insertActivated a w k.origin g) = t
    have whole : s.Serves t a e := by
      rw [← ht]
      split
      · exact silent ▸ (serves.trans .retire).trans (.updProcs _)
      · exact serves.trans (.insertActivated w k.origin g)
    refine ⟨whole.frame, whole.lists, whole.lines, whole.rings, fun discarded => ?discarded, fun kept out => ?out,
      fun pos kept narrow formed => ?formed, fun origin offset => ⟨?linear, fun m pos => AxisKind.formed_rotary m pos origin offset⟩⟩
    case discarded =>
      rw [if_pos discarded] at ht
      rw [← ht]
      refine ⟨rfl, fun p hp => ?_, ?_⟩
      · rw [State.updProcs_proc, if_neg hp]
      · rw [State.updProcs_proc, if_pos rfl, Proc.addDiscarded_eq] <;> rfl
    case out =>
      rw [if_neg (Bool.eq_false_iff.1 kept), State.insertActivated_out out] at ht
      rw [← ht, ← retires, ← axis, ← now]
    case linear => simp only [AxisKind.formed, linearRange, decide_eq_true_eq]
    case formed =>
      rw [if_neg (Bool.eq_false_iff.1 kept), State.insertActivated_formed narrow formed] at ht
      have room {q : Int} (h : l.countAt q < 8) : (dealtTo.clist a).crowded q = false := CList.not_crowded (here ▸ h)
      have full {q : Int} (h : 8 ≤ l.countAt q) : (dealtTo.clist a).crowded q = true := (CList.crowded_iff _ _).2 (here ▸ h)
      refine ⟨fun wait free => ?armed, fun is policy => ?passed, fun wait crowded => ?crowded, fun d is policy => ⟨fun last => ?last,
        fun n pitch again hp => ⟨fun q hq free => ?placed, fun q hq crowded => ?endCrowded, fun hq => ?endRange⟩⟩⟩
      case armed =>
        rw [State.placement_wait ((late pos).symm ▸ wait), room free] at ht
        rw [← ht, State.updList, here, ← hd]
        simp only [Vector.set_set]
        rfl
      case passed =>
        rw [State.placement_refuse ((late pos).symm ▸ is) policy] at ht
        rw [← ht, ← retires, ← axis, ← now]
      case crowded =>
        rw [State.placement_wait ((late pos).symm ▸ wait), full crowded] at ht
        rw [← ht, ← retires, ← axis, ← now]
        rfl
      all_goals
        rw [State.placement_fire ((late pos).trans is) policy] at ht
        dsimp only at ht
      case last =>
        rw [← ht, State.fire_last _ _ _ _ _ _ _ last, ← hd]
        simp only [Entry.fireReport, last, Bool.true_and, decide_true]
        rfl
      case placed =>
        have target : g.kind.target pos (e.pitch.getD 0) = some q := by rw [hp]; exact hq
        rw [← ht, State.fire_placed _ _ _ _ _ _ _ n again q target (room free), Entry.fireReport_again again, here, ← hd]
        simp only [State.sendAction, State.updLine, Vector.set_set]
        rfl
      case endCrowded =>
        have target : g.kind.target pos (e.pitch.getD 0) = some q := by rw [hp]; exact hq
        rw [← ht, State.fire_retired _ _ _ _ _ _ _ n again q .endCrowded (.inl ⟨target, full crowded, rfl⟩),
          Entry.fireReport_again again, Entry.endReport, reports_append, ← hd]
        rfl
      case endRange =>
        have target : g.kind.target pos (e.pitch.getD 0) = Option.none := by rw [hp]; exact hq
        rw [← ht, State.fire_retired _ _ _ _ _ _ _ n again pos .endRange (.inr ⟨target, rfl, rfl⟩),
          Entry.fireReport_again again, Entry.endReport, reports_append, ← hd]
        rfl

end Sys2Proof.Machine

namespace Sys2Proof.Machine

/-! ## Removals and their answers (R76, R77, R98, R99, R177) -/

section
variable (s : State) (p : PairId)

/-- A change of one pair's processor. -/
theorem State.updProcs_one (f : Proc → Proc) :
    (s.updProcs fun q x => if q = p then f x else x) = { s with procs := s.procs.set p (f (s.proc p)) } := by
  have procs : (Vector.ofFn fun q => if q = p then f (s.proc q) else s.proc q) = s.procs.set p (f (s.proc p)) := by
    ext i hi
    by_cases here : p.val = i
    · subst here
      simp
    · have other : (⟨i, hi⟩ : PairId) ≠ p := fun e => here (congrArg Fin.val e).symm
      rw [Vector.getElem_ofFn, if_neg other, Vector.getElem_set_ne _ _ here]
      rfl
  rw [State.updProcs, procs]

/-- The answer of a block reaches the record of a pair (R177). -/
theorem State.answer_eq (b : Block) (n : Nat) :
    s.answer p b n = { s with procs := s.procs.set p ((s.proc p).answered b n s.ts) } := s.updProcs_one p fun x => x.answered b n s.ts

/-- A block that a removal excludes answers 0 (R177, R185). -/
theorem State.answerExcluded_eq (b : Block) :
    s.answerExcluded p b = { s with procs := s.procs.set p ((s.proc p).answered b 0 0) } := s.updProcs_one p fun x => x.answered b 0 0

/-- A removal at a list takes the entries that it reaches off the list and retires them (R76, R77). -/
theorem State.removeArmed_eq (a : AxisId) (reaches : Entry → Bool) : s.removeArmed a reaches =
    { s.afterRetirements (((s.clist a).entries.filter fun x => reaches x.entry).map fun x => x.entry) with
      lists := s.lists.set a { s.clist a with entries := (s.clist a).entries.filter fun x => !reaches x.entry } } := by
  rw [State.removeArmed, State.retireAll_eq]
  rfl

end

/-- A DELETE_PAIR that discards is told of the releases of its pair's entries: at the last of them it has the stamp of it (R183). -/
theorem Proc.told_discarding (kd : Byte) (ck : W32) (p : PairId) (rm : Removing) (z : Option Nat) (live : Vector Nat 9) (ts : Nat)
    {es : List Entry} (own : ∀ e ∈ es, e.owner = p) : (Proc.busy kd ck (.discarding p rm z)).told 0 live ts es =
    .busy kd ck (.discarding p rm (if z = none ∧ 0 < es.length ∧ live[p] ≤ es.length then some ts else z)) := by
  have all : es.countP (fun e => e.owner == p) = es.length := List.countP_eq_length.2 fun e he => by simpa using own e he
  cases z with
  | some t => simp [Proc.told]
  | none =>
    simp only [Proc.told, all, true_and]
    split <;> rfl

/-- The entries of a pair that a list or a channel holds are the pair's. -/
theorem owner_of_mem_filter {es : List Entry} {p : PairId} {e : Entry} (h : e ∈ es.filter fun e => e.owner == p) : e.owner = p := by
  simpa using (List.mem_filter.1 h).2

/-- LIST_CANCEL (R76). -/
theorem exec_listCancel {s : State} {a : AxisId} {p : PairId} {kd : Byte} {ck : W32} {scope : CancelScope}
    {restrict : Option AxisId} {rm : Removing}
    (h : s.proc p = .busy kd ck (.cancelling scope restrict rm)) (todo : Block.list a ∈ rm.todo) : exec (.listCancel a p) s =
    .next ((s.removeArmed a (cancelReaches p scope)).answer p (.list a) (s.armedReached a (cancelReaches p scope))) := by
  have meaning : exec (.listCancel a p) s = execListCancel a p s := rfl
  rw [meaning, execListCancel, h]
  dsimp only [Proc.phase]
  rw [if_pos (List.contains_iff_mem.2 todo)]

/-- LIST_CANCEL_AXIS (R77). -/
theorem exec_listCancelAxis {s : State} {a b : AxisId} {kd : Byte} {ck : W32} {rm : Removing}
    (h : s.proc 0 = .busy kd ck (.cancellingAxis b rm))
    (todo : Block.list a ∈ rm.todo) : exec (.listCancelAxis a) s =
    .next ((s.removeArmed a fun _ => true).answer 0 (.list a) (s.armedReached a fun _ => true)) := by
  have meaning : exec (.listCancelAxis a) s = execListCancelAxis a s := rfl
  rw [meaning, execListCancelAxis, h]
  dsimp only [Proc.phase]
  rw [if_pos (List.contains_iff_mem.2 todo)]

/-- LIST_DISCARD_PAIR (R77, R151). -/
theorem exec_listDiscardPair {s : State} {a : AxisId} {p : PairId} {kd : Byte} {ck : W32} {rm : Removing} {z : Option Nat}
    (h : s.proc 0 = .busy kd ck (.discarding p rm z)) (todo : Block.list a ∈ rm.todo) : exec (.listDiscardPair a) s =
    .next (((s.removeArmed a fun e => e.owner == p).updList a fun l =>
      { l with discarding := if l.discarding.contains p then l.discarding else p :: l.discarding }).answer 0 (.list a)
      (s.armedReached a fun e => e.owner == p)) := by
  have meaning : exec (.listDiscardPair a) s = execListDiscardPair a s := rfl
  rw [meaning, execListDiscardPair, h]
  dsimp only [Proc.phase]
  rw [if_pos (List.contains_iff_mem.2 todo)]

/-- Settles O35: a removal is one retirement of the entries reached, and one answer; what the releases tell the record that has asked
for it is the stamp of a discard. -/
theorem listRemovalsReachTheirScope : Obligations.ListRemovalsReachTheirScope := by
  intro s a p kd ck rm todo gone removed answered owned kept
  have removal (r : Entry → Bool) : s.removeArmed a r = removed (fun x => r x.entry) kept := s.removeArmed_eq a r
  have count (r : Entry → Bool) : s.armedReached a r = (gone fun x => r x.entry).length := (List.length_map _).symm
  have proc (reaches : Armed → Bool) (d : List PairId) (q : PairId) :
      (removed reaches d).proc q = (s.proc q).told q s.pool.live s.ts (gone reaches) := State.afterRetirements_proc (gone reaches) q
  refine ⟨?cancel, ?cancelAxis, ?discard⟩
  case cancel =>
    intro scope restrict hp reaches
    have reached : (fun x : Armed => cancelReaches p scope x.entry) = reaches := by cases scope <;> rfl
    have waits : (removed reaches kept).proc p = .busy kd ck (.cancelling scope restrict rm) := by rw [proc, hp]; rfl
    rw [exec_listCancel hp todo, removal, count, reached, State.answer_eq, waits]
    rfl
  case cancelAxis =>
    intro b hp t
    have waits : t.proc 0 = .busy kd ck (.cancellingAxis b rm) := by rw [proc, hp]; rfl
    rw [exec_listCancelAxis hp todo, removal, count, State.answer_eq, waits]
    rfl
  case discard =>
    intro z hp t emptied
    have own : ∀ e ∈ gone owned, e.owner = p := by
      simp only [gone, owned, List.mem_map, List.mem_filter, beq_iff_eq]
      rintro e ⟨x, ⟨-, hx⟩, rfl⟩
      exact hx
    have waits : t.proc 0 = .busy kd ck (.discarding p rm emptied) := by rw [proc, hp, Proc.told_discarding _ _ _ _ _ _ _ own]
    have set : (removed owned kept).updList a (fun l =>
        { l with discarding := if l.discarding.contains p then l.discarding else p :: l.discarding }) = t := by
      simp [State.updList, State.clist, t, removed, kept] <;> rfl
    rw [exec_listDiscardPair hp todo, removal, count, set, State.answer_eq, waits]
    rfl

end Sys2Proof.Machine

namespace Sys2Proof.Machine

/-! ## Removals at a capture channel (R98, R99) -/

section
variable {s : State} {c : ChanId} {kd : Byte} {ck : W32} {rm : Removing}

theorem State.afterReleases_proc (es : List Entry) (q : PairId) :
    (s.afterReleases es).proc q = (s.proc q).told q s.pool.live s.ts es := by
  simp [State.afterReleases, State.proc]

/-- A removal at a channel releases the entries that it reaches and answers their number (R98, R99). -/
theorem State.removeWaiting_eq (p : PairId) (reaches : Entry → Bool) (f : Channel → Channel) :
    s.removeWaiting p c reaches f =
      ({ s.afterReleases ((s.chan c).waiting.filter reaches) with channels := s.channels.set c (f (s.chan c)) } : State).answer p
        (.channel c) ((s.chan c).waiting.filter reaches).length := by
  rw [State.removeWaiting, State.releaseAll_eq]
  rfl

/-- CHANNEL_CANCEL (R98). -/
theorem exec_channelCancel {p : PairId} {scope : CancelScope} {restrict : Option AxisId}
    (h : s.proc p = .busy kd ck (.cancelling scope restrict rm)) (todo : Block.channel c ∈ rm.todo) : exec (.channelCancel c p) s =
    .next (if (s.chan c).inRestriction restrict then
        s.removeWaiting p c (cancelReaches p scope) fun x => x.without (cancelReaches p scope)
      else s.answerExcluded p (.channel c)) := by
  have meaning : exec (.channelCancel c p) s = execChannelCancel c p s := rfl
  rw [meaning, execChannelCancel, h]
  dsimp only [Proc.phase]
  rw [if_pos (List.contains_iff_mem.2 todo)]

/-- CHANNEL_CANCEL_AXIS (R99). -/
theorem exec_channelCancelAxis {a : AxisId} (h : s.proc 0 = .busy kd ck (.cancellingAxis a rm)) (todo : Block.channel c ∈ rm.todo) :
    exec (.channelCancelAxis c) s =
    .next (if (s.chan c).boundTo a then s.removeWaiting 0 c (fun _ => true) Channel.emptied
      else s.answerExcluded 0 (.channel c)) := by
  have meaning : exec (.channelCancelAxis c) s = execChannelCancelAxis c s := rfl
  rw [meaning, execChannelCancelAxis, h]
  dsimp only [Proc.phase]
  rw [if_pos (List.contains_iff_mem.2 todo)]

/-- CHANNEL_DISCARD_PAIR (R99, R151). -/
theorem exec_channelDiscardPair {p : PairId} {z : Option Nat} (h : s.proc 0 = .busy kd ck (.discarding p rm z))
    (todo : Block.channel c ∈ rm.todo) :
    exec (.channelDiscardPair c) s = .next (s.removeWaiting 0 c (fun e => e.owner == p) fun x => x.withoutPair p) := by
  have meaning : exec (.channelDiscardPair c) s = execChannelDiscardPair c s := rfl
  rw [meaning, execChannelDiscardPair, h]
  dsimp only [Proc.phase]
  rw [if_pos (List.contains_iff_mem.2 todo)]

end

/-- Settles O45: a channel that takes part answers by one removal, and one that is excluded answers 0; what the releases tell the
record that has asked for it is the stamp of a discard. -/
theorem channelRemovalsReachTheirScope : Obligations.ChannelRemovalsReachTheirScope := by
  intro s c p kd ck rm todo x gone removed answered excluded
  have proc (y : Channel) (reaches : Entry → Bool) (q : PairId) :
      (removed y reaches).proc q = (s.proc q).told q s.pool.live s.ts (gone reaches) := State.afterReleases_proc (gone reaches) q
  refine ⟨?cancel, ?cancelAxis, ?discard⟩
  case cancel =>
    intro scope restrict hp reaches keep t
    have reached : cancelReaches p scope = reaches := by cases scope <;> rfl
    have waits : t.proc p = .busy kd ck (.cancelling scope restrict rm) := by rw [proc, hp]; rfl
    constructor
    · intro part
      have inside : x.inRestriction restrict = true := by
        obtain rfl | ⟨a, rfl, bound⟩ := part
        · rfl
        · exact bound
      have whole : s.removeWaiting p c reaches (fun x => x.without reaches) = t.answer p (.channel c) (gone reaches).length :=
        State.removeWaiting_eq p reaches _
      rw [exec_channelCancel hp todo, if_pos inside, reached, whole, State.answer_eq, waits]
      rfl
    · rintro a rfl unbound
      have outside : ¬x.inRestriction (some a) = true := by
        rw [Channel.inRestriction, unbound]
        exact Bool.false_ne_true
      rw [exec_channelCancel hp todo, if_neg outside, State.answerExcluded_eq, hp]
      rfl
  case cancelAxis =>
    intro a hp t
    have waits : t.proc 0 = .busy kd ck (.cancellingAxis a rm) := by rw [proc, hp]; rfl
    constructor
    · intro bound
      have every : gone (fun _ => true) = x.waiting := List.filter_true _
      have whole : s.removeWaiting 0 c (fun _ => true) Channel.emptied = t.answer 0 (.channel c) x.waiting.length :=
        (State.removeWaiting_eq 0 _ _).trans (congrArg (fun es : List Entry => t.answer 0 (.channel c) es.length) every)
      rw [exec_channelCancelAxis hp todo, if_pos bound, whole, State.answer_eq, waits]
      rfl
    · intro unbound
      rw [exec_channelCancelAxis hp todo, if_neg (Bool.eq_false_iff.1 unbound), State.answerExcluded_eq, hp]
      rfl
  case discard =>
    intro z hp owned n t
    have whole : s.removeWaiting 0 c owned (fun x => x.withoutPair p) = t.answer 0 (.channel c) n := State.removeWaiting_eq 0 owned _
    have waits := proc { x with
        openBatch := x.openBatch.filter fun b => b.owner != p, closed := x.closed.filter fun b => b.owner != p } owned 0
    rw [hp, Proc.told_discarding _ _ _ _ _ _ _ fun e => owner_of_mem_filter] at waits
    rw [exec_channelDiscardPair hp todo, whole, State.answer_eq, waits]
    rfl

end Sys2Proof.Machine

namespace Sys2Proof.Machine

/-! ## The append of a deferred entry (R95, R96) -/

section
variable {x : Channel} {p : PairId} {a : AxisId} {close : Bool}

theorem Channel.appendTest_unbound (unbound : x.boundTo a = false) : x.appendTest p a close = some .lineAxis := if_pos unbound

theorem Channel.appendTest_open {b : Batch} (bound : x.boundTo a = true) (hb : x.openBatch = some b) : x.appendTest p a close =
    if b.owner ≠ p then some .channelOpenElsewhere
    else if close = true ∧ 16 ≤ x.closed.length then some .queueFull
    else if 64 ≤ b.entries.length then some .batchFull
    else none := by
  rw [Channel.appendTest, if_neg (by simp [bound]), hb] <;> rfl

theorem Channel.appendTest_closed (bound : x.boundTo a = true) (hb : x.openBatch = none) : x.appendTest p a close =
    if close = true ∧ 16 ≤ x.closed.length then some .queueFull else none := by
  rw [Channel.appendTest, if_neg (by simp [bound]), hb] <;> rfl

/-- A refusal other than BATCH_FULL leaves the channel as it is (R96). -/
theorem Channel.refused_other {st : Status} (other : st ≠ .batchFull) : x.refused st close = x := if_neg fun h => other h.1

/-- BATCH_FULL with the CLOSE flag on closes the full batch (R96). -/
theorem Channel.refused_full {b : Batch} (hb : x.openBatch = some b) : x.refused .batchFull close =
    if close then { x with openBatch := none, closed := x.closed ++ [b] } else x := by
  cases close <;> simp [Channel.refused, Channel.close, hb]

/-- The channel after an accepted append that leaves `b` as the batch with the entry (R95, R96). -/
theorem Channel.accepted_eq {w : Waiting} {b : Batch} (appended : x.appended p w = { x with openBatch := some b }) :
    x.accepted p w close =
      if close then { x with openBatch := none, closed := x.closed ++ [b] } else { x with openBatch := some b } := by
  rw [Channel.accepted, appended] <;> rfl

end

section
variable {s : State} {p : PairId} {kd : Byte} {ck : W32} {w : Waiting} {c : ChanId} {close : Bool}

/-- A refused append: the entry is released, and the status is the ack's (R95). -/
theorem exec_append_refused {st : Status} (hp : s.proc p = .busy kd ck (.appending w c close))
    (test : (s.chan c).appendTest p w.entry.axis close = some st) : exec (.append p) s =
    .next ((({ s with channels := s.channels.set c ((s.chan c).refused st close) } : State).afterReleases [w.entry]).withAck
      p kd ck st 0 s.ts) := by
  have meaning : exec (.append p) s = execAppend p s := rfl
  have busy : ((s.updChan c fun x => x.refused st close).afterReleases [w.entry]).proc p = .busy kd ck (.appending w c close) := by
    rw [State.afterReleases_proc]
    exact congrArg (Proc.told · p s.pool.live s.ts [w.entry]) hp
  rw [meaning, execAppend, hp]
  dsimp only [Proc.phase]
  rw [test]
  dsimp only
  rw [State.release_eq, State.handAck_busy _ p kd ck _ st 0 s.ts busy]
  rfl

/-- An accepted append (R95). -/
theorem exec_append_accepted (hp : s.proc p = .busy kd ck (.appending w c close))
    (test : (s.chan c).appendTest p w.entry.axis close = none) : exec (.append p) s =
    .next { s.withAck p kd ck .ok 0 s.ts with channels := s.channels.set c ((s.chan c).accepted p w close) } := by
  have meaning : exec (.append p) s = execAppend p s := rfl
  rw [meaning, execAppend, hp]
  dsimp only [Proc.phase]
  rw [test]
  dsimp only
  rw [State.handAck_busy (s.updChan c _) p kd ck _ .ok 0 s.ts hp]
  rfl

end

/-- Settles O44: the outcome of the tests, and then the batch that the append leaves. -/
theorem appendBuildsTheOpenBatch : Obligations.AppendBuildsTheOpenBatch := by
  intro s p kd ck w c close x refused accepted full hp
  have other (st : Status) (hst : st ≠ .batchFull) (test : x.appendTest p w.entry.axis close = some st) :
      exec (.append p) s = .next (refused x st) := by
    rw [exec_append_refused hp test, Channel.refused_other hst]
  have joins (b : Batch) (test : x.appendTest p w.entry.axis close = none)
      (appended : x.appended p w = { x with openBatch := some b }) : exec (.append p) s = .next (accepted b) := by
    rw [exec_append_accepted hp test, Channel.accepted_eq appended]
  refine ⟨fun unbound => other _ nofun (Channel.appendTest_unbound unbound), fun bound => ⟨?elsewhere, ?queueFull, ?batchFull, ?joined,
    ?noRoom, ?created⟩⟩
  case elsewhere =>
    intro b hb foreign
    exact other _ nofun (by rw [Channel.appendTest_open bound hb, if_pos foreign])
  case queueFull =>
    intro b hb own isFull
    exact other _ nofun (by rw [Channel.appendTest_open bound hb, if_neg (not_not.2 own), if_pos isFull])
  case batchFull =>
    intro b hb own room long
    have test : x.appendTest p w.entry.axis close = some .batchFull := by
      rw [Channel.appendTest_open bound hb, if_neg (not_not.2 own), if_neg room, if_pos long]
    rw [exec_append_refused hp test, Channel.refused_full hb]
  case joined =>
    intro b hb own room short
    have test : x.appendTest p w.entry.axis close = none := by
      rw [Channel.appendTest_open bound hb, if_neg (not_not.2 own), if_neg room, if_neg (Nat.not_le.2 short)]
    exact joins _ test (by rw [Channel.appended, hb])
  case noRoom =>
    intro hb isFull
    exact other _ nofun (by rw [Channel.appendTest_closed bound hb, if_pos isFull])
  case created =>
    intro hb room
    exact joins ⟨p, [w]⟩ (by rw [Channel.appendTest_closed bound hb, if_neg room]) (by rw [Channel.appended, hb])

end Sys2Proof.Machine

namespace Sys2Proof.Machine

/-! ## The configuration of a line (R104, R105, R182) -/

section
variable {s : State} {r : Record} {p : PairId}

/-- LINE_CONFIG: its tests in order, and the line configured (R104, R105). -/
theorem exec_lineConfig (h : s.Takes r .lineConfig p) : exec (.lineConfig r) s =
    if s.bindable r.lineConfig = false then .next (s.recordAnswered p r .notConfigured 0 s.ts)
    else if 0 < (s.line (r.lineAt 8)).refCount then .next (s.recordAnswered p r .lineInUse 0 s.ts)
    else if 0 < (s.line (r.lineAt 8)).tripCount then .next (s.recordAnswered p r .lineTripped 0 s.ts)
    else .next { s.recordAnswered p r .ok 0 s.ts with
      lines := s.lines.set (r.lineAt 8) ((s.line (r.lineAt 8)).configured r.lineConfig (s.heldFor r.lineConfig)) } := by
  have meaning : exec (.lineConfig r) s = execLineConfig r s := rfl
  have bindable : (s.startRecord p r).bindable r.lineConfig = s.bindable r.lineConfig := by cases r.lineConfig <;> rfl
  have heldFor : (s.startRecord p r).heldFor r.lineConfig = s.heldFor r.lineConfig := by cases r.lineConfig <;> rfl
  have line (n : LineId) : (s.startRecord p r).line n = s.line n := rfl
  have answer (st : Status) : (s.startRecord p r).handAck p st 0 (s.startRecord p r).ts = s.recordAnswered p r st 0 s.ts :=
    s.startRecord_handAck p r st 0 s.ts
  have configured (l : Line) : ({ s.startRecord p r with lines := s.lines.set (r.lineAt 8) l } : State).handAck p .ok 0 s.ts =
      { s.recordAnswered p r .ok 0 s.ts with lines := s.lines.set (r.lineAt 8) l } := State.handAck_started s r p _ .ok 0 s.ts rfl rfl
  rw [meaning, execLineConfig, State.onRecord_takes s r .lineConfig p _ h]
  dsimp only
  rw [bindable, line, heldFor, answer, Line.configTest]
  by_cases unbound : s.bindable r.lineConfig = false
  · rw [if_pos unbound, if_pos unbound]
  rw [if_neg unbound, if_neg unbound]
  by_cases used : 0 < (s.line (r.lineAt 8)).refCount
  · rw [if_pos used, if_pos used]
    exact congrArg _ (answer .lineInUse)
  rw [if_neg used, if_neg used]
  by_cases tripped : 0 < (s.line (r.lineAt 8)).tripCount
  · rw [if_pos tripped, if_pos tripped]
    exact congrArg _ (answer .lineTripped)
  · rw [if_neg tripped, if_neg tripped]
    exact congrArg _ (configured _)

/-! ## The configuration of a capture channel (R84 to R86, R182) -/

theorem posOutside_rotary {m : Nat} {pos : Int} : posOutside (.rotary m) pos = true ↔ pos < 0 ∨ (m : Int) ≤ pos := by
  simp only [posOutside, Bool.not_eq_true', decide_eq_false_iff_not]
  omega

/-- The window whose bounds fit the axis (R84). -/
theorem badWindow_eq_none {k : AxisKind} {lo hi : Int} (fits : match k with
    | .linear => lo ≤ hi
    | .rotary m => 0 ≤ lo ∧ lo < m ∧ 0 ≤ hi ∧ hi < m) : badWindow k (lo, hi) = none := by
  cases k with
  | linear => exact if_pos fits
  | rotary m =>
    obtain ⟨loPos, loIn, hiPos, hiIn⟩ := fits
    rw [badWindow, if_neg (by rw [posOutside_rotary]; omega), if_neg (by rw [posOutside_rotary]; omega)]

theorem badWindow_rotary_lo {m : Nat} {lo hi : Int} (out : lo < 0 ∨ (m : Int) ≤ lo) : badWindow (.rotary m) (lo, hi) = some 8 :=
  if_pos (posOutside_rotary.2 out)

theorem badWindow_rotary_hi {m : Nat} {lo hi : Int} (loPos : 0 ≤ lo) (loIn : lo < m) (out : hi < 0 ∨ (m : Int) ≤ hi) :
    badWindow (.rotary m) (lo, hi) = some 9 := by
  rw [badWindow, if_neg (by rw [posOutside_rotary]; omega), if_pos (posOutside_rotary.2 out)]

theorem State.captureTest_unconfigured {g : ChanConfig} (hy : (s.axis g.axis).config = none) :
    s.captureTest g = some (.notConfigured, 0) := by
  rw [State.captureTest, hy]

theorem State.captureTest_window {g : ChanConfig} {y : AxisConfig} {w : Int × Int} (hy : (s.axis g.axis).config = some y)
    (hw : g.window = some w) : s.captureTest g = (badWindow y.kind w).map fun ix => (.badField, ix) := by
  rw [State.captureTest, hy]
  dsimp only
  rw [hw]

theorem State.captureTest_passes {g : ChanConfig} {y : AxisConfig} (hy : (s.axis g.axis).config = some y)
    (fits : ∀ w, g.window = some w → badWindow y.kind w = none) : s.captureTest g = none := by
  cases hw : g.window with
  | none =>
    rw [State.captureTest, hy]
    dsimp only
    rw [hw]
  | some w => rw [State.captureTest_window hy hw, fits w hw, Option.map_none]

/-- A record that releases entries and hands its ack: it is told nothing of the releases. -/
theorem State.afterReleases_handAck_acked {kd : Byte} {ck : W32} (acked : s.proc p = .busy kd ck .acked) (es : List Entry)
    (st : Status) (d t : Nat) : (s.afterReleases es).handAck p st d t = (s.handAck p st d t).afterReleases es := by
  have acked' : (s.afterReleases es).proc p = .busy kd ck .acked := by
    rw [State.afterReleases_proc, acked]
    rfl
  have same : s.procs.set p (.busy kd ck .acked) = s.procs := by
    rw [← acked]
    exact Vector.set_getElem_self _
  have same' : (s.afterReleases es).procs.set p (.busy kd ck .acked) = (s.afterReleases es).procs := by
    rw [← acked']
    exact Vector.set_getElem_self _
  rw [State.handAck_busy _ p _ _ _ st d t acked, State.handAck_busy _ p _ _ _ st d t acked', State.withAck, State.withAck, same, same']
  rfl

/-- CAPTURE_CONFIG that a test of its axis and its window refuses (R84, R182). -/
theorem exec_captureConfig_refused (h : s.Takes r .captureConfig p) (on : r.flag 0 = true) {st : Status} {d : Nat}
    (test : s.captureTest r.chanConfig = some (st, d)) : exec (.captureConfig r) s = .next (s.recordAnswered p r st d s.ts) := by
  have meaning : exec (.captureConfig r) s = execCaptureConfig r s := rfl
  have test' : (s.startRecord p r).captureTest r.chanConfig = some (st, d) := test
  rw [meaning, execCaptureConfig, State.onRecord_takes s r .captureConfig p _ h]
  dsimp only
  rw [if_pos on, test']
  exact congrArg _ (s.startRecord_handAck p r st d s.ts)

/-- The ack of a record that has changed its channel. -/
theorem State.startRecord_updChan_handAck (c : ChanId) (f : Channel → Channel) (st : Status) (d t : Nat) :
    ((s.startRecord p r).updChan c f).handAck p st d t =
      { s.recordAnswered p r st d t with channels := s.channels.set c (f (s.chan c)) } :=
  s.startRecord_handAck_units r p st d t s.axes s.lists _ s.lines s.nqReq

/-- The ack of a record that has changed its channel and released entries. -/
theorem State.startRecord_updChan_afterReleases_handAck (c : ChanId) (f : Channel → Channel) (es : List Entry) (st : Status)
    (d t : Nat) : (((s.startRecord p r).updChan c f).afterReleases es).handAck p st d t =
      { (s.recordAnswered p r st d t).afterReleases es with channels := s.channels.set c (f (s.chan c)) } := by
  have acked : ((s.startRecord p r).updChan c f).proc p = .busy (r.byte 0) r.cookie .acked :=
    (s.startRecord_proc p p r).trans (if_pos rfl)
  rw [State.afterReleases_handAck_acked acked, State.startRecord_updChan_handAck]
  rfl

/-- CAPTURE_CONFIG that turns a channel on (R85, R86). -/
theorem exec_captureConfig_on (h : s.Takes r .captureConfig p) (on : r.flag 0 = true)
    (test : s.captureTest r.chanConfig = none) : exec (.captureConfig r) s =
    if (s.chan (r.chanAt 8)).waiting ≠ [] then .next (s.recordAnswered p r .channelHasEntries 0 s.ts)
    else .next { s.recordAnswered p r .ok 0 s.ts with
      channels := s.channels.set (r.chanAt 8) (enabledChannel r.chanConfig s.pins.cin[r.chanConfig.input]) } := by
  have meaning : exec (.captureConfig r) s = execCaptureConfig r s := rfl
  have test' : (s.startRecord p r).captureTest r.chanConfig = none := test
  have chan (c : ChanId) : (s.startRecord p r).chan c = s.chan c := rfl
  rw [meaning, execCaptureConfig, State.onRecord_takes s r .captureConfig p _ h]
  dsimp only
  rw [if_pos on, test']
  dsimp only [State.configureChan]
  rw [chan]
  split
  · exact congrArg _ (s.startRecord_handAck p r .channelHasEntries 0 s.ts)
  · exact congrArg _ (State.startRecord_updChan_handAck (r.chanAt 8) _ .ok 0 s.ts)

/-- CAPTURE_CONFIG that turns a channel off (R85, R86). -/
theorem exec_captureConfig_off (h : s.Takes r .captureConfig p) (off : r.flag 0 = false) : exec (.captureConfig r) s =
    if (s.chan (r.chanAt 8)).waiting ≠ [] ∧ r.flag 1 = false then .next (s.recordAnswered p r .channelHasEntries 0 s.ts)
    else .next { (s.recordAnswered p r .ok 0 s.ts).afterReleases (s.chan (r.chanAt 8)).waiting with
      channels := s.channels.set (r.chanAt 8) (blankChannel (s.chan (r.chanAt 8)).ref) } := by
  have meaning : exec (.captureConfig r) s = execCaptureConfig r s := rfl
  have chan (c : ChanId) : (s.startRecord p r).chan c = s.chan c := rfl
  rw [meaning, execCaptureConfig, State.onRecord_takes s r .captureConfig p _ h]
  dsimp only
  rw [if_neg (Bool.eq_false_iff.1 off)]
  dsimp only [State.configureChan]
  rw [chan]
  split
  · exact congrArg _ (s.startRecord_handAck p r .channelHasEntries 0 s.ts)
  · rw [State.releaseAll_eq]
    exact congrArg _ (State.startRecord_updChan_afterReleases_handAck (r.chanAt 8) _ _ .ok 0 s.ts)

end

/-- Settles O59: a LINE_CONFIG has one equation, and a CAPTURE_CONFIG one for each outcome of its tests; what is left is the outcome
that each of the conditions makes. -/
theorem lineAndChannelConfiguration : Obligations.LineAndChannelConfiguration := by
  intro s r p refused
  refine ⟨fun h => ?line, fun h => ?capture⟩
  case line =>
    intro n g l tested
    have whole := exec_lineConfig h
    refine ⟨fun hg => ?disabled, fun d hg => ?host, fun a d hg => ?compare⟩
    case disabled =>
      have hr : r.lineConfig = .disabled := hg
      rw [whole, hr]
      simp only [tested, l, hg]
      rfl
    case host =>
      have hr : r.lineConfig = .host d := hg
      rw [whole, hr]
      simp only [tested, l, hg]
      rfl
    case compare =>
      have hr : r.lineConfig = .compare a d := hg
      rw [whole, hr]
      simp only [tested, l, hg, State.bindable, Option.isSome_eq_false_iff, Option.isNone_iff_eq_none]
      rfl
  case capture =>
    intro c x g
    constructor
    · intro on
      have bad {y : AxisConfig} {w : Int × Int} {ix : Nat} (hy : (s.axis g.axis).config = some y) (hw : g.window = some w)
          (out : badWindow y.kind w = some ix) : exec (.captureConfig r) s = refused .badField ix :=
        exec_captureConfig_refused h on (by rw [State.captureTest_window hy hw, out, Option.map_some])
      refine ⟨fun none => ?_, fun y lo hi hy hw => ⟨fun kind low => ?_, fun m kind out => ?_, fun m kind loPos loIn out => ?_⟩,
        fun y hy fits => ?_⟩
      · exact exec_captureConfig_refused h on (State.captureTest_unconfigured none)
      · exact bad hy hw (by rw [kind]; exact if_neg (Int.not_le.2 low))
      · exact bad hy hw (by rw [kind]; exact badWindow_rotary_lo out)
      · exact bad hy hw (by rw [kind]; exact badWindow_rotary_hi loPos loIn out)
      · exact exec_captureConfig_on h on (State.captureTest_passes hy fun w hw => badWindow_eq_none (fits w.1 w.2 hw))
    · intro off
      constructor
      · intro waits keep
        rw [exec_captureConfig_off h off, if_pos ⟨waits, keep⟩]
      · intro empties
        have goes : ¬(x.waiting ≠ [] ∧ r.flag 1 = false) := by
          rintro ⟨waits, keep⟩
          obtain none | discard := empties
          · exact waits none
          · exact Bool.false_ne_true (keep.symm.trans discard)
        rw [exec_captureConfig_off h off, if_neg goes]
        rfl

end Sys2Proof.Machine

namespace Sys2Proof.Machine

/-! ## The records that make and drain pairs (R149, R150) -/

section
variable {s : State} {r : Record} {p : PairId}

/-- A record of a kind that work pairs do not have is the admin pair's (R170). -/
theorem State.Takes.admin {k : Kind} (h : s.Takes r k p) (notWork : k ∉ Kind.work) : p = 0 := by
  obtain ⟨addr, -, -, onRing⟩ := State.fetchedFor_eq_some_iff.1 h.1
  have ofRing := (Kind.onRing_eq_some_iff.1 onRing).2
  by_contra work
  rw [Kind.ofRing, if_neg work] at ofRing
  exact notWork ofRing

theorem State.startRecord_pair_state (q : PairId) : ((s.startRecord p r).pair q).state = (s.pair q).state := by
  rw [State.startRecord_pair]
  by_cases own : p = q
  · rw [if_pos own, own]
  · rw [if_neg own]

/-- The new pair is made before the ack is handed (R149). -/
theorem State.newPair_handAck (u : State) (q : PairId) (x : Pair) (quota : Nat) (st : Status) (d t : Nat)
    (hp : u.procs = (s.startRecord p r).procs) (hc : u.cqReq = s.cqReq) :
    (((u.updPair q fun _ => x).setQuota q quota).queueZeros q).handAck p st d t =
      { (((u.updPair q fun _ => x).setQuota q quota).queueZeros q) with
        procs := (s.recordAnswered p r st d t).procs, cqReq := (s.recordAnswered p r st d t).cqReq } :=
  State.handAck_started s r p _ st d t hp hc

/-- CREATE_PAIR (R149). -/
theorem exec_createPair (h : s.Takes r .createPair p) : exec (.createPair r) s =
    .next (if (s.pair (r.pairAt 8)).state ≠ .absent then s.recordAnswered p r .pairExists 0 s.ts
      else { s.recordAnswered p r .ok 0 s.ts with
        pairs := (s.recordAnswered p r .ok 0 s.ts).pairs.set (r.pairAt 8) (Record.newPair r)
        pool := ⟨s.pool.free, s.pool.quota.set (r.pairAt 8) (r.u16 36), s.pool.live.set (r.pairAt 8) 0⟩
        writeQ := (s.recordAnswered p r .ok 0 s.ts).writeQ ++ [.head (r.pairAt 8) 0, .tail (.cq (r.pairAt 8)) 0 false] }) := by
  have meaning : exec (.createPair r) s = execCreatePair r s := rfl
  rw [meaning, execCreatePair, State.onRecord_takes s r .createPair p _ h]
  dsimp only
  rw [State.startRecord_pair_state]
  split
  · exact congrArg _ (s.startRecord_handAck p r .pairExists 0 s.ts)
  · have answered := State.newPair_handAck (p := p) (r := r) (s.startRecord p r) (r.pairAt 8) (Record.newPair r) (r.u16 36) .ok 0 s.ts
      rfl rfl
    refine congrArg _ (answered.trans ?_)
    have pairs : (s.startRecord p r).pairs = (s.recordAnswered p r .ok 0 s.ts).pairs := rfl
    have writeQ : (s.startRecord p r).writeQ = (s.recordAnswered p r .ok 0 s.ts).writeQ := rfl
    rw [State.queueZeros, State.setQuota, State.updPair, pairs, writeQ]
    rfl

/-- DELETE_PAIR (R150). -/
theorem exec_deletePair (h : s.Takes r .deletePair p) : exec (.deletePair r) s =
    .next (if (s.pair (r.pairAt 8)).state = .absent then s.recordAnswered p r .pairAbsent 0 s.ts
      else (((s.startRecord p r).updPair (r.pairAt 8) fun x => { x with state := .draining }).abortBarrier (r.pairAt 8)).setPhase p
        (.draining (r.pairAt 8) (r.flag 0))) := by
  have meaning : exec (.deletePair r) s = execDeletePair r s := rfl
  rw [meaning, execDeletePair, State.onRecord_takes s r .deletePair p _ h]
  dsimp only
  rw [State.startRecord_pair_state]
  split
  · exact congrArg _ (s.startRecord_handAck p r .pairAbsent 0 s.ts)
  · rfl

/-- A record that goes to a phase once it has been started and another pair has changed. -/
theorem State.startRecord_updPair_taken (q : PairId) (f : Pair → Pair) (ph : Phase) :
    ({ (s.startRecord p r).updPair q f with
      procs := ((s.startRecord p r).updPair q f).procs.set p (.busy (r.byte 0) r.cookie ph) } : State) =
      (s.recordTaken p r ph).updPair q f := by
  have started : (s.startRecord p r).proc p = .busy (r.byte 0) r.cookie .acked := (s.startRecord_proc p p r).trans (if_pos rfl)
  rw [← s.startRecord_setPhase p r ph, State.setPhase_busy _ p _ _ _ ph started]
  rfl

theorem State.recordTaken_updPair {q : PairId} (other : q ≠ p) (f : Pair → Pair) (ph : Phase) : (s.recordTaken p r ph).updPair q f =
    { s.recordTaken p r ph with pairs := (s.recordTaken p r ph).pairs.set q (f (s.pair q)) } := by
  have same : (s.recordTaken p r ph).pair q = s.pair q :=
    Vector.getElem_set_ne p.isLt q.isLt fun e => other (Fin.ext e.symm)
  rw [State.updPair, same]

theorem State.abortBarrier_waiting {q : PairId} {kd : Byte} {ck : W32} {b : BarrierWait} (h : s.proc q = .busy kd ck (.waiting b)) :
    s.abortBarrier q = s.withAck q kd ck .aborted b.remaining s.ts := by
  rw [State.abortBarrier, h]
  exact s.handAck_busy q kd ck _ .aborted b.remaining s.ts h

/-- The ack of one pair's record and the phase of another's (R172). -/
theorem State.withAck_setPhase {q : PairId} (other : q ≠ p) {k kd : Byte} {c ck : W32} {ph : Phase} (h : s.proc p = .busy k c ph)
    (ph' : Phase) (st : Status) (d t : Nat) : (s.withAck q kd ck st d t).setPhase p ph' =
      ({ s with procs := s.procs.set p (.busy k c ph') } : State).withAck q kd ck st d t := by
  have apart : q.val ≠ p.val := fun e => other (Fin.ext e)
  have busy : (s.withAck q kd ck st d t).proc p = .busy k c ph :=
    (Vector.getElem_set_ne q.isLt p.isLt apart).trans h
  rw [State.setPhase_busy _ p k c ph ph' busy]
  simp only [State.withAck, State.requests]
  rw [Vector.set_comm _ _ apart]

/-- Where no BARRIER of the pair waits, there is nothing to end. -/
theorem State.abortBarrier_other {q : PairId} (h : ∀ kd ck b, s.proc q ≠ .busy kd ck (.waiting b)) : s.abortBarrier q = s := by
  unfold State.abortBarrier
  split
  · next b hb =>
    cases hq : s.proc q with
    | idle => simp [hq, Proc.phase] at hb
    | busy kd ck ph =>
      rw [hq] at hb
      exact absurd (hq.trans (congrArg _ (Option.some.inj hb))) (h kd ck b)
  · rfl

end

/-! ## The notice ring set up anew (R152) -/

section
variable {s : State} {r : Record} {p : PairId}

/-- Of what was accepted before, no write carries a tail of the new ring (R152). -/
theorem State.setNotices_onTheWay (s : State) (base : W64) (size : Nat) : (s.setNotices base size).onTheWay .nq = [] := by
  rw [State.onTheWay_eq_ways, State.ways, State.movers]
  refine wayOf_eq_nil fun w hw => ?_
  obtain bus | queued := List.mem_append.1 hw
  · have bus' : w ∈ s.busMover.filter fun w => !w.ofNotices := s.busMover_staleWhen _ ▸ bus
    exact QueuedWrite.still_of_not_ofNotices (by simpa using (List.mem_filter.1 bus').2)
  · obtain waits | last := List.mem_append.1 queued
    · obtain ⟨u, hu, rfl⟩ := List.mem_map.1 waits
      exact QueuedWrite.unpublished_still (by simpa using (List.mem_filter.1 hu).2)
    · rw [List.mem_singleton.1 last]
      exact ⟨rfl, rfl⟩

/-- The notice ring is set up before the ack is handed (R152). -/
theorem State.setNotices_handAck (u : State) (base : W64) (size : Nat) (st : Status) (d t : Nat)
    (hp : u.procs = (s.startRecord p r).procs) (hc : u.cqReq = s.cqReq) : (u.setNotices base size).handAck p st d t =
      { u.setNotices base size with
        procs := (s.recordAnswered p r st d t).procs, cqReq := (s.recordAnswered p r st d t).cqReq } :=
  State.handAck_started s r p _ st d t hp hc

/-- SET_NOTICE_RING (R152). -/
theorem exec_setNoticeRing (h : s.Takes r .setNoticeRing p) : exec (.setNoticeRing r) s =
    .next (((s.startRecord p r).setNotices (BitVec.ofNat 64 (r.u64 8)) (r.u16 16)).handAck p .ok 0 s.ts) := by
  have meaning : exec (.setNoticeRing r) s = execSetNoticeRing r s := rfl
  rw [meaning, execSetNoticeRing, State.onRecord_takes s r .setNoticeRing p _ h]
  rfl

theorem QueuedWrite.recordOf_iff (w : QueuedWrite) (ring : RingId) :
    w.recordOf ring = true ↔ ∃ slot next data, w = .record ring slot next data := by
  cases w <;> simp [QueuedWrite.recordOf]

theorem QueuedWrite.ofNotices_iff (w : QueuedWrite) :
    w.ofNotices = true ↔ (∃ slot next data, w = .record .nq slot next data) ∨ ∃ v publishes, w = .tail .nq v publishes := by
  cases w <;> simp [QueuedWrite.ofNotices]

end

/-- Settles O57: each record has one equation; a DELETE_PAIR comes from the admin pair and never names it, so the drain of its pair and
the end of that pair's BARRIER leave the record alone. -/
theorem pairRecordsMakeAndDrainPairs : Obligations.PairRecordsMakeAndDrainPairs := by
  intro s r p q
  refine ⟨fun h => ?create, fun h => ?delete, fun h => ?notices, fun w => ⟨w.recordOf_iff .nq, w.ofNotices_iff⟩⟩
  case create =>
    refine ⟨fun present => ?_, fun absent => ?_⟩
    · rw [exec_createPair h, if_pos present]
    · rw [exec_createPair h, if_neg (not_not.2 absent), Record.newPair]
  case delete =>
    have admin : p = 0 := h.admin (by decide)
    have work : q ≠ 0 := Record.pairAt_ne_zero_of_deletePair h.2
    have other : q ≠ p := admin ▸ work
    refine ⟨fun absent => ?_, fun present => ?_⟩
    · rw [exec_deletePair h, if_pos absent]
    intro t drains
    have proc (f : Pair → Pair) (q' : PairId) :
        ((s.startRecord p r).updPair q f).proc q' = if p = q' then .busy (r.byte 0) r.cookie .acked else s.proc q' :=
      s.startRecord_proc p q' r
    have started (f : Pair → Pair) : ((s.startRecord p r).updPair q f).proc p = .busy (r.byte 0) r.cookie .acked := by
      rw [proc, if_pos rfl]
    have drained : (t.updPair q fun x => { x with state := .draining }) = drains := State.recordTaken_updPair other _ _
    rw [exec_deletePair h, if_neg present]
    constructor
    · intro kd ck b hb
      have waits (f : Pair → Pair) : ((s.startRecord p r).updPair q f).proc q = .busy kd ck (.waiting b) := by
        rw [proc, if_neg other.symm, hb]
      rw [State.abortBarrier_waiting (waits _), State.withAck_setPhase other (started _), State.startRecord_updPair_taken, drained,
        State.updPair_ts, State.startRecord_ts]
    · intro none
      have nothing (f : Pair → Pair) : ((s.startRecord p r).updPair q f).abortBarrier q = (s.startRecord p r).updPair q f :=
        State.abortBarrier_other fun kd ck b => by
          rw [proc, if_neg other.symm]
          exact none kd ck b
      rw [nothing, State.setPhase_busy _ p _ _ _ _ (started _), State.startRecord_updPair_taken, drained]
  case notices =>
    intro answered
    have whole := State.setNotices_handAck (s.startRecord p r) (BitVec.ofNat 64 (r.u64 8)) (r.u16 16) .ok 0 s.ts rfl rfl
    refine ⟨_, exec_setNoticeRing h, ?_, ?_⟩
    · rw [whole]
      rfl
    · rw [whole]
      exact (s.startRecord p r).setNotices_onTheWay (BitVec.ofNat 64 (r.u64 8)) (r.u16 16)

end Sys2Proof.Machine
